-- ==== Sys2Proof/Word.lean ====
section
/-! DEFINITION. The word types of the engine: bytes on the wire and 16-bit values (00_scope.md R11). -/

namespace Sys2Proof

/-- A byte, 8 bits, unsigned (R11). -/
abbrev Byte := BitVec 8

/-- A `u16`, or the two's-complement pattern of an `i16` (R11). -/
abbrev Word16 := BitVec 16

end Sys2Proof
end

