-- ==== Sys2Proof/Machine/Params.lean ====
section
/-! DEFINITION. The parameters of rule R9 of 00_scope.md: `Params` is the argument that the operations, the meanings, the decoder and the
encoder take (93_implementation_defined.md U1, U2, U18, U19), and `Config.params`, its default, is this hardware. The default of each
parameter has a name here, where a later repair may mend it, and so have the request codes of 30_encoding.md R80. The codec (U3) and the
link's answers (U5) are arguments of their own: `Machine.Codec` and `Machine.Oracle`. -/

namespace Sys2Proof.Config

/-! ### The CRC generator (R9, R100, R105) -/

/-- `CRC_WIDTH`, the width of the generator's register. -/
abbrev crcWidth : Nat := 16
/-- `CRC_POLY`, the reflected polynomial. -/
abbrev crcPoly : Nat := 0x8408
/-- `CRC_INIT`, the initial register. -/
abbrev crcInit : Nat := 0xFFFF
/-- `CRC_XOROUT`: the final register is complemented, which is XOR with 0xFFFF. -/
abbrev crcXorOut : Nat := 0xFFFF
/-- `CRC_BYTESWAP`, false by decision D37 (R105). -/
abbrev crcByteswap : Bool := false

/-! ### Packet and frame lengths (R9, 90_conflicts.md C1) -/

/-- `CMD_LEN`: an unstuffed command packet. -/
abbrev cmdLen : Nat := 7
/-- `RSP_LEN`: an unstuffed response packet. -/
abbrev rspLen : Nat := 5
/-- `FRAME_OVERHEAD`: one stuffing byte and one terminator. -/
abbrev frameOverhead : Nat := 2
/-- `TERMINATOR`, the last byte of every frame. -/
abbrev terminator : Byte := 0x00

/-! ### Command opcodes (R75) -/

/-- `OPC_SYNC`. -/
abbrev opcSync : Byte := 0x30
/-- `OPC_RAW`. -/
abbrev opcRaw : Byte := 0x10
/-- `OPC_TRIGGER`. -/
abbrev opcTrigger : Byte := 0x20

/-! ### Response kind tags, the parameter `KIND_TAG` at its default (R77, decision D3) -/

/-- `KIND_SENSOR_VALUE`, the one tag the source states. -/
abbrev kindSensorValue : Byte := 0x00
/-- `KIND_SYNC_OK` (decision D3). -/
abbrev kindSyncOk : Byte := 0x01
/-- `KIND_RAW_ACK` (decision D3). -/
abbrev kindRawAck : Byte := 0x02
/-- `KIND_TRIGGER_ACK` (decision D3). -/
abbrev kindTriggerAck : Byte := 0x03
/-- `KIND_UNKNOWN_COMMAND` (decision D3). -/
abbrev kindUnknownCommand : Byte := 0x04
/-- `KIND_CRC_MISMATCH` (decision D3). -/
abbrev kindCrcMismatch : Byte := 0x05
/-- `KIND_WRONG_SIZE` (decision D3). -/
abbrev kindWrongSize : Byte := 0x06

/-! ### Budgets, regimes and delays (R9, R10, decisions D8, D11, D13) -/

/-- `SYNC_ATTEMPTS`: 100, and no other value for a claim about this hardware (R10). -/
abbrev syncAttempts : Nat := 100
/-- `RESYNC_ATTEMPTS`: 100, and no other value for a claim about this hardware (R10). -/
abbrev resyncAttempts : Nat := 100
/-- `DRAIN_MIN`. -/
abbrev drainMin : Nat := 0
/-- `DRAIN_TIMEOUT_DS`. -/
abbrev drainTimeoutDs : Nat := 0
/-- `BLOCK_MIN`. -/
abbrev blockMin : Nat := 7
/-- `BLOCK_TIMEOUT_DS`. -/
abbrev blockTimeoutDs : Nat := 10
/-- `SETTLE_DS`. -/
abbrev settleDs : Nat := 20
/-- `DRAIN_CHUNK`. -/
abbrev drainChunk : Nat := 1

/-! ### Host request codes (R80, decision D2) -/

/-- OPEN_AND_SYNC. -/
abbrev opOpenAndSync : Byte := 0x01
/-- SET_RAW_MODE. -/
abbrev opSetRawMode : Byte := 0x02
/-- SET_TRIGGER_MODE. -/
abbrev opSetTriggerMode : Byte := 0x03
/-- READ_SENSOR_VALUE. -/
abbrev opReadSensorValue : Byte := 0x04
/-- CRC16. -/
abbrev opCrc16 : Byte := 0x05
/-- SET_DEBUG. -/
abbrev opSetDebug : Byte := 0x06
/-- CLOSE. -/
abbrev opClose : Byte := 0x07

end Sys2Proof.Config

namespace Sys2Proof

/-- The parameters of R9's table, by its names. -/
structure Params where
  /-- `CRC_WIDTH` -/
  crcWidth : Nat
  /-- `CRC_POLY` -/
  crcPoly : Nat
  /-- `CRC_INIT` -/
  crcInit : Nat
  /-- `CRC_XOROUT` -/
  crcXorOut : Nat
  /-- `CRC_BYTESWAP` -/
  crcByteswap : Bool
  /-- `CMD_LEN` -/
  cmdLen : Nat
  /-- `RSP_LEN` -/
  rspLen : Nat
  /-- `FRAME_OVERHEAD` -/
  frameOverhead : Nat
  /-- `TERMINATOR` -/
  terminator : Byte
  /-- `OPC_SYNC` -/
  opcSync : Byte
  /-- `OPC_RAW` -/
  opcRaw : Byte
  /-- `OPC_TRIGGER` -/
  opcTrigger : Byte
  /-- `KIND_TAG`, sensor-value -/
  kindSensorValue : Byte
  /-- `KIND_TAG`, sync-ok -/
  kindSyncOk : Byte
  /-- `KIND_TAG`, raw-mode-ack -/
  kindRawAck : Byte
  /-- `KIND_TAG`, trigger-mode-ack -/
  kindTriggerAck : Byte
  /-- `KIND_TAG`, unknown-command -/
  kindUnknownCommand : Byte
  /-- `KIND_TAG`, crc-mismatch -/
  kindCrcMismatch : Byte
  /-- `KIND_TAG`, wrong-size -/
  kindWrongSize : Byte
  /-- `SYNC_ATTEMPTS` -/
  syncAttempts : Nat
  /-- `RESYNC_ATTEMPTS` -/
  resyncAttempts : Nat
  /-- `DRAIN_MIN` -/
  drainMin : Nat
  /-- `DRAIN_TIMEOUT_DS` -/
  drainTimeoutDs : Nat
  /-- `BLOCK_MIN` -/
  blockMin : Nat
  /-- `BLOCK_TIMEOUT_DS` -/
  blockTimeoutDs : Nat
  /-- `SETTLE_DS` -/
  settleDs : Nat
  /-- `DRAIN_CHUNK` -/
  drainChunk : Nat
  deriving DecidableEq, Repr

/-- The parameters of this hardware, the default of every argument of type `Params` (R9, R10). -/
abbrev Config.params : Params where
  crcWidth := Config.crcWidth
  crcPoly := Config.crcPoly
  crcInit := Config.crcInit
  crcXorOut := Config.crcXorOut
  crcByteswap := Config.crcByteswap
  cmdLen := Config.cmdLen
  rspLen := Config.rspLen
  frameOverhead := Config.frameOverhead
  terminator := Config.terminator
  opcSync := Config.opcSync
  opcRaw := Config.opcRaw
  opcTrigger := Config.opcTrigger
  kindSensorValue := Config.kindSensorValue
  kindSyncOk := Config.kindSyncOk
  kindRawAck := Config.kindRawAck
  kindTriggerAck := Config.kindTriggerAck
  kindUnknownCommand := Config.kindUnknownCommand
  kindCrcMismatch := Config.kindCrcMismatch
  kindWrongSize := Config.kindWrongSize
  syncAttempts := Config.syncAttempts
  resyncAttempts := Config.resyncAttempts
  drainMin := Config.drainMin
  drainTimeoutDs := Config.drainTimeoutDs
  blockMin := Config.blockMin
  blockTimeoutDs := Config.blockTimeoutDs
  settleDs := Config.settleDs
  drainChunk := Config.drainChunk

/-- `CMD_ENC_LEN = CMD_LEN + FRAME_OVERHEAD` (R9). -/
abbrev Params.cmdEncLen (P : Params) : Nat := P.cmdLen + P.frameOverhead

/-- `RSP_ENC_LEN = RSP_LEN + FRAME_OVERHEAD` (R9). -/
abbrev Params.rspEncLen (P : Params) : Nat := P.rspLen + P.frameOverhead

end Sys2Proof
end

