-- ==== Sys2Proof/Machine/Crc.lean ====
section
/-! DEFINITION. The CRC-16 generator as a function of bytes (40_crc.md R100 to R105). -/

namespace Sys2Proof.Machine

/-- One bit of R100's inner loop, at any width: the register shifted right, with `CRC_POLY` applied when the feedback bit is 1. -/
def crcShift {w : Nat} (reg : BitVec w) (bit : Bool) (P : Params := Config.params) : BitVec w :=
  if (reg.getLsbD 0 ^^ bit) = true then (reg >>> 1) ^^^ BitVec.ofNat w P.crcPoly else reg >>> 1

/-- `k` rounds of R100's inner loop, least significant bit of `d` first (R53). -/
def crcBits {w : Nat} (k : Nat) (reg : BitVec w) (d : Byte) (P : Params := Config.params) : BitVec w :=
  match k with
  | 0 => reg
  | k + 1 => crcBits k (crcShift reg (d.getLsbD 0) P) (d >>> 1) P

/-- One byte of R100's outer loop. -/
def crcByte {w : Nat} (reg : BitVec w) (d : Byte) (P : Params := Config.params) : BitVec w := crcBits 8 reg d P

/-- The register after R100's outer loop over the bytes. -/
def crcRun {w : Nat} (reg : BitVec w) (data : List Byte) (P : Params := Config.params) : BitVec w :=
  data.foldl (fun r d => crcByte r d P) reg

/-- `S.crcReg` where `crc16(data, n)` complements it, `CRC_WIDTH` bits wide (R100, R101). -/
def crcRegister (data : List Byte) (n : Nat) (P : Params := Config.params) : BitVec P.crcWidth :=
  crcRun (BitVec.ofNat P.crcWidth P.crcInit) (data.take n) P

/-- The complement of R100, as a `u16`. -/
def crcComplement (P : Params) (reg : BitVec P.crcWidth) : Word16 := (reg ^^^ BitVec.ofNat P.crcWidth P.crcXorOut).setWidth 16

/-- `{c[7:0], c[15:8]}` if `CRC_BYTESWAP` says so (R105). -/
def crcSwap (P : Params) (c : Word16) : Word16 := if P.crcByteswap then c.extractLsb' 0 8 ++ c.extractLsb' 8 8 else c

/-- `crc16(data, n)` (R100, R105). For `n = 0` the complement is returned as it is, and no byte of `data` is read (R101). -/
def crc16 (data : List Byte) (n : Nat) (P : Params := Config.params) : Word16 :=
  if n = 0 then crcComplement P (BitVec.ofNat P.crcWidth P.crcInit) else crcSwap P (crcComplement P (crcRegister data n P))

end Sys2Proof.Machine
end

