-- ==== Sys2Proof/Machine/Operands.lean ====
section
/-! DEFINITION. Operand assembly: 16-bit values from and to big-endian byte pairs, sign and zero extension, and byte sequences as
numbers (00_scope.md R12, R13; 20_memory.md R52; 30_encoding.md R78, R79; 44_commands.md R184, R188). -/

namespace Sys2Proof.Machine

/-- `v[15:8]` (R52). -/
def hi (v : Word16) : Byte := BitVec.ofNat 8 (v.toNat / 256)

/-- `v[7:0]` (R52). -/
def lo (v : Word16) : Byte := BitVec.ofNat 8 v.toNat

/-- `{h, l}`, the `u16` `h * 256 + l` (R12). -/
def be16 (h l : Byte) : Word16 := BitVec.ofNat 16 (h.toNat * 256 + l.toNat)

/-- `zext_16(b)` (R12). -/
def zext16 (b : Byte) : Word16 := b.setWidth 16

/-- `sext_16(u)`: the `u16` read as an `i16` (R12, R78). -/
def sext16 (u : Word16) : Int := u.toInt

/-- The signed comparison of two `i16` values (R188). -/
def signedGt (low high : Word16) : Bool := decide (sext16 high < sext16 low)

/-- A count as a `u16`, saturated at 0xFFFF (R213). -/
def sat16 (n : Nat) : Word16 := BitVec.ofNat 16 (min n 0xFFFF)

/-- The kind byte of a response packet (R184). -/
def kindOf (p : List Byte) : Byte := p.getD 0 0

/-- The value word of a response packet, big-endian (R78, R184). -/
def valueOf (p : List Byte) : Word16 := be16 (p.getD 1 0) (p.getD 2 0)

/-- The trailing CRC of an `n`-byte packet, big-endian (R74, R162 step 5). -/
def crcFieldOf (n : Nat) (p : List Byte) : Word16 := be16 (p.getD (n - 2) 0) (p.getD (n - 1) 0)

/-- The `n` bytes of a number, most significant first (R71, R72: byte 0 in the highest bits). -/
def beBytes : Nat → Nat → List Byte
  | 0, _ => []
  | n + 1, w => BitVec.ofNat 8 (w / 256 ^ n) :: beBytes n (w % 256 ^ n)

/-- The number whose bytes, most significant first, are given. -/
def beNat (bytes : List Byte) : Nat := bytes.foldl (fun w b => w * 256 + b.toNat) 0

end Sys2Proof.Machine
end

