-- ==== Sys2Proof/Machine/Ports.lean ====
section
/-! DEFINITION. What the engine's two outside collaborators may answer: the link's answers (41_link_and_codec.md R116 to R119)
and the codec with the laws of R110 and R111, which are all the model assumes of it. -/

namespace Sys2Proof.Machine

/-- Why `LinkOpen` failed (R118, decision D38). -/
inductive OpenError where
  /-- "device open failure" -/
  | linkOpen
  /-- "device-lock failure" -/
  | linkLock
  /-- "attribute get/set failure" -/
  | linkAttr
  deriving DecidableEq, Repr, Inhabited

/-- The answer of `LinkOpen` (R118). -/
inductive OpenResult where
  | ok
  | err (e : OpenError)
  deriving DecidableEq, Repr, Inhabited

/-- The answer of `LinkConfigure` (R119). -/
inductive ConfigResult where
  | ok
  | err
  deriving DecidableEq, Repr, Inhabited

/-- The answer of `LinkRead` (R116). -/
inductive ReadResult where
  | ok (bytes : List Byte)
  | err
  deriving DecidableEq, Repr, Inhabited

/-- The answer of `LinkWrite` (R117). -/
inductive WriteResult where
  | ok (count : Nat)
  | err
  deriving DecidableEq, Repr, Inhabited

/-- The answer within the contract of `LinkRead(maxLen)`: at most `maxLen` bytes (R116). -/
def ReadResult.within (maxLen : Nat) : ReadResult → ReadResult
  | .ok bytes => .ok (bytes.take maxLen)
  | .err => .err

/-- The answer within the contract of `LinkWrite`: a count of at most the bytes offered (R117). -/
def WriteResult.within (len : Nat) : WriteResult → WriteResult
  | .ok count => .ok (min count len)
  | .err => .err

/-- The codec port's two functions: `Enc` never fails, and `Dec` answers bytes or `Err`, here `none` (R110, R111). -/
structure Codec where
  enc : List Byte → List Byte
  dec : List Byte → Option (List Byte)

/-- A packet length the engine gives the codec: `CMD_LEN` or `RSP_LEN` (R110). -/
abbrev IsPacket (p : List Byte) : Prop := p.length = Config.cmdLen ∨ p.length = Config.rspLen

/-- A codec that obeys R110 and R111. The model assumes these laws and nothing more (R112). -/
structure LawfulCodec extends Codec where
  /-- `|Enc(p)| = |p| + FRAME_OVERHEAD` (R110) -/
  enc_length : ∀ p, IsPacket p → (enc p).length = p.length + Config.frameOverhead
  /-- `Enc(p)[|p| + 1] = TERMINATOR` (R110) -/
  enc_last : ∀ p, IsPacket p → (enc p)[p.length + 1]? = some Config.terminator
  /-- `Enc(p)[i] ≠ 0x00` for `i` in `0..|p|` (R110, 90_conflicts.md C3) -/
  enc_inner : ∀ p, IsPacket p → ∀ i, i ≤ p.length → (enc p)[i]? ≠ some 0x00
  /-- `Dec(Enc(p)) = Ok(p)` (R111) -/
  dec_enc : ∀ p, IsPacket p → dec (enc p) = some p

/-- A byte from 1 to 8 that does not occur in `p`; only `LawfulCodec.witness` uses it. -/
def witnessKey (p : List Byte) : Byte :=
  (([1, 2, 3, 4, 5, 6, 7, 8] : List Byte).find? (fun k => k ∉ p)).getD 1

/-- Some eight-value key is free, since a packet has at most seven bytes. -/
theorem witnessKey_spec (p : List Byte) (h : p.length ≤ 7) : witnessKey p ∉ p ∧ witnessKey p ≠ 0 := by
  unfold witnessKey
  cases hf : ([1, 2, 3, 4, 5, 6, 7, 8] : List Byte).find? (fun k => k ∉ p) with
  | none =>
    have hall : ([1, 2, 3, 4, 5, 6, 7, 8] : List Byte) ⊆ p := by
      intro k hk
      simpa using List.find?_eq_none.1 hf k hk
    have hle := (List.subperm_of_subset (by decide) hall).length_le
    simp at hle
    omega
  | some k =>
    have hk := List.find?_some hf
    have hm := List.mem_of_find?_eq_some hf
    refine ⟨by simpa using hk, ?_⟩
    intro h0
    simp at h0
    subst h0
    revert hm
    decide

/-- Some lawful codec exists, so that `Config.codecPort` is about something; nothing about the engine's codec follows from it. -/
def LawfulCodec.witness : LawfulCodec where
  enc p := (witnessKey p :: p.map (· ^^^ witnessKey p)) ++ [Config.terminator]
  dec f := f.head?.map (fun k => (f.tail.dropLast).map (· ^^^ k))
  enc_length p _ := by simp [Config.frameOverhead]
  enc_last p _ := by simp
  enc_inner p hp i hi := by
    have hk := witnessKey_spec p (by rcases hp with h | h <;> simp [h, Config.cmdLen, Config.rspLen])
    cases i with
    | zero => simpa using hk.2
    | succ j =>
      have hj : j < p.length := by omega
      rw [List.cons_append, List.getElem?_cons_succ, List.getElem?_append_left (by simpa using hj)]
      simp only [List.getElem?_map, List.getElem?_eq_getElem hj, Option.map_some, ne_eq, Option.some.injEq]
      intro h0
      exact hk.1 ((BitVec.xor_eq_zero_iff.1 h0) ▸ List.getElem_mem hj)
  dec_enc p _ := by simp [Function.comp_def, BitVec.xor_assoc]

end Sys2Proof.Machine
end

