-- ==== Sys2Proof/Config.lean ====
section
/-! DEFINITION. The free values of the model, none with a body: what the link answers (41_link_and_codec.md R116 to R119), what the
host's data channel carries beyond the bytes the state lists, and the codec (R110 to R112). The numbers of rule R9 stand in
Machine/Params.lean under the same namespace, where a repair may mend them. -/

namespace Sys2Proof.Config

open Sys2Proof.Machine

/-- `LinkOpen`'s answer, free, applied to the number of free draws made before it (R118). -/
opaque freeOpen : Nat → OpenResult

/-- `LinkConfigure`'s answer, free (R119). -/
opaque freeConfigure : Nat → ConfigResult

/-- `LinkRead`'s answer, free; the reader keeps at most `max_len` of its bytes (R116). -/
opaque freeRead : Nat → ReadResult

/-- `LinkWrite`'s answer, free; the reader bounds the count by the bytes offered (R117). -/
opaque freeWrite : Nat → WriteResult

/-- Byte `i` of a request's data channel where the state lists no byte for it, free (R80, R106). -/
opaque freeData : Nat → Nat → Byte

/-- The codec, free but for its laws. Its argument only says that some lawful codec exists (decision D4). -/
opaque codecPort [Inhabited LawfulCodec] : LawfulCodec

/-- The codec port as the engine is wired to it, with its laws. -/
def lawfulCodec : LawfulCodec := @codecPort ⟨LawfulCodec.witness⟩

/-- The codec port's two functions. -/
def codec : Codec := lawfulCodec.toCodec

end Sys2Proof.Config
end

