-- ==== Sys2Proof/Machine/State.lean ====
section
/-! DEFINITION. The engine's state as plain data: the fields of 10_state.md R22 and R40, the point its sequencing has reached (R21), what
R42 asks a model to remember, and the model's own record of the world at the ports. Also its reset value (R41) and the reasons a
step can stop. -/

namespace Sys2Proof.Machine

/-- `S.link` (R23). -/
inductive LinkState where
  | closed
  | opened
  deriving DecidableEq, Repr

/-- `S.regime` (R24). -/
inductive Regime where
  | unconfigured
  | drain
  | blocking
  deriving DecidableEq, Repr

/-- `S.sync` (R25). -/
inductive SyncState where
  | unsynced
  | seekingHeader
  | drainingGarbage
  | awaitingEcho
  | synced
  deriving DecidableEq, Repr

/-- `S.mode` (R26). -/
inductive Mode where
  | idle
  | rawConfigured
  | triggerConfigured
  deriving DecidableEq, Repr

/-- The class of a status (R34, R211). -/
inductive StatusClass where
  | none
  | linkFatal
  | protocolFatal
  | soft
  | usage
  deriving DecidableEq, Repr

/-- The error codes of R212, by name; `Machine.ErrorCode.num` gives their numbers. -/
inductive ErrorCode where
  | linkOpen
  | linkLock
  | linkAttr
  | writeCount
  | readIo
  | writeIo
  | syncExhausted
  | notInSync
  | wrongEncLen
  | outOfSync
  | decodeFailed
  | wrongDecLen
  | crcMismatch
  | rawModeFailed
  | triggerModeFailed
  | notSensorReading
  | frameDiscarded
  | badThresholds
  | sequence
  | illegalOp
  deriving DecidableEq, Repr

/-- `S.status`: class and 8-bit code (R34). -/
structure Status where
  cls : StatusClass
  code : Byte
  deriving DecidableEq, Repr

/-- One event of `S.trace` (R40). -/
inductive Event where
  /-- `OPEN(r)` -/
  | linkOpen (r : OpenResult)
  /-- `CONFIG(min, tds, r)` -/
  | config (min tds : Nat) (r : ConfigResult)
  /-- `TX(bytes, r)` -/
  | tx (bytes : List Byte) (r : WriteResult)
  /-- `RX(max_len, r)` -/
  | rx (maxLen : Nat) (r : ReadResult)
  /-- `SLEEP(tds)` -/
  | sleep (tds : Nat)
  /-- `CLOSE` -/
  | close
  /-- `DONE(op, status, diagA, diagB, result)`, with `op` the request's code -/
  | done (op : Byte) (status : Status) (diagA diagB result : Word16)
  deriving DecidableEq, Repr

/-- The operation whose response the engine awaits: OPEN_AND_SYNC step 6, SET_RAW_MODE, SET_TRIGGER_MODE or READ_SENSOR_VALUE. -/
inductive Exchange where
  | echo
  | rawMode
  | triggerMode
  | reading
  deriving DecidableEq, Repr

/-- The point the engine's sequencing has reached (R21: a model represents it however it likes). -/
inductive Point where
  /-- No operation runs: the engine waits for a request (R242). -/
  | idle
  /-- The command encoder holds a command packet to build, its bytes given (44_commands.md, section 1). -/
  | building (command : List Byte)
  /-- OPEN_AND_SYNC is in its drain, which has no bound (R137). -/
  | draining
  /-- The operation awaits its response frame. -/
  | awaiting (x : Exchange)
  deriving DecidableEq, Repr

/-- Which of the fields that R41 leaves unspecified the running operation has written: what R42 asks a model to remember. -/
structure Written where
  crcReg : Bool
  txPkt : Bool
  txFrame : Bool
  rxFrame : Bool
  rxPkt : Bool
  deriving DecidableEq, Repr

/-- No such field has been written (R32, R41). -/
def Written.nothing : Written := { crcReg := false, txPkt := false, txFrame := false, rxFrame := false, rxPkt := false }

/-- A host request: its HREQ word and the bytes of its data channel (R80, R106). -/
structure Request where
  word : BitVec 40
  data : List Byte
  deriving DecidableEq, Repr

/-- The link oracle (R116 to R119, decision D7): the answers already known, oldest first, and the number of free draws made. Where a
list is empty the answer is free (`Config.freeOpen` and its fellows). The model's own field, not the spec's. -/
structure Oracle where
  opens : List OpenResult
  configures : List ConfigResult
  reads : List ReadResult
  writes : List WriteResult
  drawn : Nat
  deriving DecidableEq, Repr

/-- No answer is known: every one is free. -/
def Oracle.fresh : Oracle := { opens := [], configures := [], reads := [], writes := [], drawn := 0 }

/-- The engine's state. -/
structure State where
  /-- R23 -/
  link : LinkState
  /-- R24 -/
  regime : Regime
  /-- R25 -/
  sync : SyncState
  /-- R26 -/
  mode : Mode
  /-- R27 -/
  rawFlag : Bool
  /-- R28 -/
  debug : Bool
  /-- R29: at most `SYNC_ATTEMPTS` -/
  syncCount : Nat
  /-- R30: at most `RESYNC_ATTEMPTS` -/
  resyncCount : Nat
  /-- R31 -/
  crcReg : Word16
  /-- R32: the unstuffed command packet, 7 bytes -/
  txPkt : List Byte
  /-- R32: the encoded command frame, 9 bytes -/
  txFrame : List Byte
  /-- R32: the raw bytes of one receive read, up to 7 -/
  rxFrame : List Byte
  /-- R32: the decoded response packet, 5 bytes -/
  rxPkt : List Byte
  /-- R42: which of the five fields above the running operation has written -/
  written : Written
  /-- R33 -/
  busy : Bool
  /-- R34 -/
  status : Status
  /-- R35 -/
  diagA : Word16
  /-- R35 -/
  diagB : Word16
  /-- R36 -/
  result : Word16
  /-- R40, oldest event first -/
  trace : List Event
  /-- R21 -/
  point : Point
  /-- The data channel of the accepted request (R80, R106). -/
  reqData : List Byte
  /-- The requests the host offers, next first; one waits while `busy` (R86, R203). The model's own field. -/
  requests : List Request
  /-- The link's answers. The model's own field. -/
  oracle : Oracle
  /-- The resets to come, the outside world's choice (R240, log entry 6): the first number counts the moments until the next reset, each
  further one the moments from the reset before it. The start of a step is one moment, and so is each event that the step records. The
  model's own field. -/
  resets : List Nat
  deriving DecidableEq, Repr

/-- Why a step stops with a fault. -/
inductive Fault where
  /-- `step` raises it where OPEN_AND_SYNC would go on with a command packet the operation never wrote (R42). Safe: the machine stops,
  and no state the engine reaches is such a state. -/
  | unspecifiedRead
  deriving DecidableEq, Repr

/-- Why a step refuses. -/
inductive Refusal where
  /-- Raised by no arm: every instruction has its meaning. Safe: the machine stops. -/
  | notModelled (mnemonic : String)
  /-- `step` raises it where the command encoder is given bytes that are no command of R75, R76: the engine never builds one (R82).
  Safe: the machine stops. -/
  | undefinedCommand
  deriving DecidableEq, Repr

/-- The state after reset (R41, R240). The fields that R41 leaves unspecified hold zeros, or no byte, and are marked unwritten (log
entry 1). -/
def State.reset : State where
  link := .closed
  regime := .unconfigured
  sync := .unsynced
  mode := .idle
  rawFlag := false
  debug := false
  syncCount := 0
  resyncCount := 0
  crcReg := 0
  txPkt := []
  txFrame := []
  rxFrame := []
  rxPkt := []
  written := Written.nothing
  busy := false
  status := { cls := .none, code := 0x00 }
  diagA := 0
  diagB := 0
  result := 0
  trace := []
  point := .idle
  reqData := []
  requests := []
  oracle := Oracle.fresh
  resets := []

end Sys2Proof.Machine
end

