-- ==== Sys2Proof/Machine/Flags.lean ====
section
/-! DEFINITION. The numbers of the state's enumerations and of the error codes, the class of each code, and how a status is computed
(10_state.md R23 to R26, R34; 60_exceptions.md R211, R212). -/

namespace Sys2Proof.Machine

/-- R23. -/
def LinkState.num : LinkState → BitVec 1
  | .closed => 0
  | .opened => 1

/-- R24. -/
def Regime.num : Regime → BitVec 2
  | .unconfigured => 0
  | .drain => 1
  | .blocking => 2

/-- R25. -/
def SyncState.num : SyncState → BitVec 3
  | .unsynced => 0
  | .seekingHeader => 1
  | .drainingGarbage => 2
  | .awaitingEcho => 3
  | .synced => 4

/-- R26. -/
def Mode.num : Mode → BitVec 2
  | .idle => 0
  | .rawConfigured => 1
  | .triggerConfigured => 2

/-- R211. -/
def StatusClass.num : StatusClass → BitVec 3
  | .none => 0
  | .linkFatal => 1
  | .protocolFatal => 2
  | .soft => 3
  | .usage => 4

/-- R212, the code column. -/
def ErrorCode.num : ErrorCode → Byte
  | .linkOpen => 0x01
  | .linkLock => 0x02
  | .linkAttr => 0x03
  | .writeCount => 0x04
  | .readIo => 0x05
  | .writeIo => 0x06
  | .syncExhausted => 0x10
  | .notInSync => 0x11
  | .wrongEncLen => 0x12
  | .outOfSync => 0x13
  | .decodeFailed => 0x14
  | .wrongDecLen => 0x15
  | .crcMismatch => 0x16
  | .rawModeFailed => 0x17
  | .triggerModeFailed => 0x18
  | .notSensorReading => 0x19
  | .frameDiscarded => 0x20
  | .badThresholds => 0x30
  | .sequence => 0x31
  | .illegalOp => 0x32

/-- R212, the class column. -/
def ErrorCode.cls : ErrorCode → StatusClass
  | .linkOpen => .linkFatal
  | .linkLock => .linkFatal
  | .linkAttr => .linkFatal
  | .writeCount => .linkFatal
  | .readIo => .linkFatal
  | .writeIo => .linkFatal
  | .syncExhausted => .protocolFatal
  | .notInSync => .protocolFatal
  | .wrongEncLen => .protocolFatal
  | .outOfSync => .protocolFatal
  | .decodeFailed => .protocolFatal
  | .wrongDecLen => .protocolFatal
  | .crcMismatch => .protocolFatal
  | .rawModeFailed => .protocolFatal
  | .triggerModeFailed => .protocolFatal
  | .notSensorReading => .protocolFatal
  | .frameDiscarded => .soft
  | .badThresholds => .usage
  | .sequence => .usage
  | .illegalOp => .usage

/-- The status of a successful operation (R219). -/
def Status.success : Status := { cls := .none, code := 0x00 }

/-- The status of an operation that raised this code (R205). -/
def Status.ofError (c : ErrorCode) : Status := { cls := c.cls, code := c.num }

/-- The code of a failed `LinkOpen` (R118, R212). -/
def OpenError.code : OpenError → ErrorCode
  | .linkOpen => .linkOpen
  | .linkLock => .linkLock
  | .linkAttr => .linkAttr

/-- `S.sync` and `S.mode` as SEQUENCE's diagnostic words (R213). -/
def SyncState.diag (x : SyncState) : Word16 := x.num.setWidth 16
/-- See `SyncState.diag`. -/
def Mode.diag (x : Mode) : Word16 := x.num.setWidth 16

end Sys2Proof.Machine
end

