-- ==== Sys2Proof/Machine/Ops.lean ====
section
/-! DEFINITION. The shared operations: the link primitives (00_scope.md R15; 41_link_and_codec.md R116 to R121), raising an error and
completing an operation (00_scope.md R16; 45_session.md R204, R205; 60_exceptions.md R216 to R219), the CRC unit, the command encoder
(44_commands.md R180), SendCommand and ReceivePacket (43_send_receive.md), Resync (42_sync.md R142) and the kind check. -/

namespace Sys2Proof.Machine

/-! ### The link oracle -/

/-- The next answer of `LinkOpen`: the first one known, else a free one (R118). -/
def Oracle.takeOpen (o : Oracle) : OpenResult × Oracle :=
  match o.opens with
  | r :: rest => (r, { o with opens := rest })
  | [] => (Config.freeOpen o.drawn, { o with drawn := o.drawn + 1 })

/-- The next answer of `LinkConfigure` (R119). -/
def Oracle.takeConfigure (o : Oracle) : ConfigResult × Oracle :=
  match o.configures with
  | r :: rest => (r, { o with configures := rest })
  | [] => (Config.freeConfigure o.drawn, { o with drawn := o.drawn + 1 })

/-- The next answer of `LinkRead(maxLen)`, at most `maxLen` bytes (R116). -/
def Oracle.takeRead (maxLen : Nat) (o : Oracle) : ReadResult × Oracle :=
  match o.reads with
  | r :: rest => (r.within maxLen, { o with reads := rest })
  | [] => ((Config.freeRead o.drawn).within maxLen, { o with drawn := o.drawn + 1 })

/-- The next answer of `LinkWrite` for `len` bytes, a count of at most `len` (R117). -/
def Oracle.takeWrite (len : Nat) (o : Oracle) : WriteResult × Oracle :=
  match o.writes with
  | r :: rest => (r.within len, { o with writes := rest })
  | [] => ((Config.freeWrite o.drawn).within len, { o with drawn := o.drawn + 1 })

/-! ### The link primitives: each one records one event (R40) -/

/-- Append one event to the trace (R40). -/
def State.record (e : Event) (s : State) : State := { s with trace := s.trace ++ [e] }

/-- `LinkOpen()` (R118). -/
def linkOpen (s : State) : OpenResult × State :=
  let r := s.oracle.takeOpen
  (r.1, ({ s with oracle := r.2 } : State).record (.linkOpen r.1))

/-- `LinkConfigure(min, tds)` (R119). -/
def linkConfigure (min tds : Nat) (s : State) : ConfigResult × State :=
  let r := s.oracle.takeConfigure
  (r.1, ({ s with oracle := r.2 } : State).record (.config min tds r.1))

/-- `LinkRead(maxLen)` (R116). -/
def linkRead (maxLen : Nat) (s : State) : ReadResult × State :=
  let r := s.oracle.takeRead maxLen
  (r.1, ({ s with oracle := r.2 } : State).record (.rx maxLen r.1))

/-- `LinkWrite(bytes)` (R117). -/
def linkWrite (bytes : List Byte) (s : State) : WriteResult × State :=
  let r := s.oracle.takeWrite bytes.length
  (r.1, ({ s with oracle := r.2 } : State).record (.tx bytes r.1))

/-- `LinkSleep(tds)`: it always returns and changes nothing else (R121). -/
def linkSleep (tds : Nat) (s : State) : State := s.record (.sleep tds)

/-- `LinkClose()`: it always succeeds (R120). -/
def linkClose (s : State) : State := s.record .close

/-! ### Outcomes -/

/-- An error with its two diagnostic values (R16). -/
structure Raise where
  code : ErrorCode
  a : Word16
  b : Word16
  deriving DecidableEq, Repr

/-- What running part of an operation comes to: it goes on with a value, it raises, or it has not ended (the drain, R137). -/
inductive Res (α : Type) where
  | ok (v : α) (s : State)
  | raise (e : Raise) (s : State)
  | running (s : State)

/-- Run the rest of an operation where the first part goes on. A raise ends the whole operation: there is no catch (R16). -/
def Res.bind {α β : Type} (r : Res α) (k : α → State → Res β) : Res β :=
  match r with
  | .ok v s => k v s
  | .raise e s => .raise e s
  | .running s => .running s

/-- The state in which part of an operation left the engine. -/
def Res.state {α : Type} : Res α → State
  | .ok _ s => s
  | .raise _ s => s
  | .running s => s

/-- What an operation hands back: a 16-bit result, or none (R205). -/
abbrev OpRes := Res (Option Word16)

/-! ### Taking an error and completing an operation -/

/-- `S.sync <- Unsynced` and `S.mode <- Idle` (R141, R216). -/
def State.desync (s : State) : State := { s with sync := .unsynced, mode := .idle }

/-- The state effect of an error at the point of the raise: a fatal error desynchronizes (R216), and so does a soft one inside
OPEN_AND_SYNC (R141, R217). Another soft error and a usage error change nothing (R217, R218). -/
def raiseEffect (op : Byte) (e : Raise) (s : State) : State :=
  match e.code.cls with
  | .linkFatal => s.desync
  | .protocolFatal => s.desync
  | .soft => if op = Config.opOpenAndSync then s.desync else s
  | .usage => s
  | .none => s

/-- Write the status fields, record `DONE` and free the port (R205). What the buffers and `S.crcReg` hold from here on is unspecified (R32);
that they keep what was last written is the model's choice (DESIGN CHOICE, log entry 18). -/
def finish (op : Byte) (st : Status) (a b result : Word16) (s : State) : State :=
  { s with
    status := st, diagA := a, diagB := b, result := result
    trace := s.trace ++ [.done op st a b result]
    written := Written.nothing, busy := false, point := .idle, reqData := [] }

/-- Completion: every operation that ends, ends here (R205). One that has not ended leaves the engine busy (R206). -/
def complete (op : Byte) : OpRes → State
  | .ok v s => finish op Status.success 0 0 (v.getD s.result) s
  | .raise e s => finish op (Status.ofError e.code) e.a e.b s.result (raiseEffect op e s)
  | .running s => s

/-- The request cycle of R204: `S.busy <- true`, the operation, completion. -/
def hostOp (op : Byte) (body : State → OpRes) (s : State) : State := complete op (body { s with busy := true })

/-! ### The host's data channel -/

/-- The first `n` bytes of the request's data channel; a byte the state does not list is free (R106). -/
def dataBytes (n : Nat) (s : State) : List Byte :=
  s.reqData.take n ++ (List.range (n - s.reqData.length)).map (Config.freeData s.oracle.drawn)

/-- Count the free bytes of the data channel as a draw. -/
def State.drewData (n : Nat) (s : State) : State :=
  if n ≤ s.reqData.length then s else { s with oracle := { s.oracle with drawn := s.oracle.drawn + 1 } }

/-! ### The CRC unit and the command encoder -/

/-- Run the CRC unit: its register ends at the value before the complement (R100, R102). -/
def crcUnit (data : List Byte) (n : Nat) (s : State) (P : Params := Config.params) : Word16 × State :=
  (crc16 data n P,
    { s with crcReg := (crcRegister data n P).setWidth 16, written := { s.written with crcReg := true } })

/-- The bytes that BuildCmd's CRC covers: opcode and payload, big-endian (R180). -/
def cmdBody (opc : Byte) (a b : Word16) : List Byte := [opc, hi a, lo a, hi b, lo b]

/-- The packet that BuildCmd returns (R180). -/
def cmdPacket (opc : Byte) (a b : Word16) (P : Params := Config.params) : List Byte :=
  let c := crc16 (cmdBody opc a b) 5 P
  cmdBody opc a b ++ [hi c, lo c]

/-- `S.txPkt <- BuildCmd(opc, a, b)` (R180). -/
def buildCmd (opc : Byte) (a b : Word16) (s : State) (P : Params := Config.params) : State :=
  let r := crcUnit (cmdBody opc a b) 5 s P
  { r.2 with txPkt := cmdBody opc a b ++ [hi r.1, lo r.1], written := { r.2.written with txPkt := true } }

/-! ### SendCommand and ReceivePacket -/

/-- `SendCommand(pkt)` (R160, R161). -/
def sendCommand (C : Codec) (pkt : List Byte) (s : State) (P : Params := Config.params) : Res Unit :=
  let frame := C.enc pkt
  let r := linkWrite frame { s with txFrame := frame, written := { s.written with txFrame := true } }
  match r.1 with
  | .err => .raise { code := .writeIo, a := 0, b := sat16 P.cmdEncLen } r.2
  | .ok count =>
    if count = P.cmdEncLen then .ok () r.2
    else .raise { code := .writeCount, a := sat16 count, b := sat16 P.cmdEncLen } r.2

/-- Resync's loop with `n` attempts left of its budget (R142). -/
def resyncLoop (n : Nat) (s : State) (P : Params := Config.params) : Res Bool :=
  match n with
  | 0 => .ok false s
  | n + 1 =>
    let r := linkRead 1 s
    match r.1 with
    | .err => .raise { code := .readIo, a := 0, b := 1 } r.2
    | .ok bytes =>
      let t := { r.2 with resyncCount := r.2.resyncCount + 1 }
      if bytes = [P.terminator] then .ok true t else resyncLoop n t P

/-- `Resync()` (R142). -/
def resync (s : State) (P : Params := Config.params) : Res Bool := resyncLoop P.resyncAttempts { s with resyncCount := 0 } P

/-- ReceivePacket step 3 for a frame whose last byte is not the terminator: the frame is lost either way (R165). -/
def discardFrame (s : State) (P : Params := Config.params) : Res (List Byte) :=
  (resync s P).bind fun found t =>
    if found then .raise { code := .frameDiscarded, a := sat16 t.resyncCount, b := 0 } t
    else .raise { code := .outOfSync, a := sat16 t.resyncCount, b := 0 } t

/-- ReceivePacket step 5 and 6 for a packet of `n` bytes (R167, R168). -/
def checkCrc (n : Nat) (s : State) (P : Params := Config.params) : Res (List Byte) :=
  let r := crcUnit s.rxPkt (n - 2) s P
  if crcFieldOf n s.rxPkt = r.1 then .ok s.rxPkt r.2
  else .raise { code := .crcMismatch, a := crcFieldOf n s.rxPkt, b := r.1 } r.2

/-- ReceivePacket step 4 and what follows it, for a frame whose last byte is the terminator (R166). -/
def unpackFrame (C : Codec) (n : Nat) (s : State) (P : Params := Config.params) : Res (List Byte) :=
  match C.dec s.rxFrame with
  | none => .raise { code := .decodeFailed, a := 0, b := 0 } s
  | some d =>
    if d.length = 0 then .raise { code := .decodeFailed, a := 0, b := 0 } s
    else if d.length = n then checkCrc n { s with rxPkt := d, written := { s.written with rxPkt := true } } P
    else .raise { code := .wrongDecLen, a := sat16 d.length, b := sat16 n } s

/-- `ReceivePacket(n)` (R162 to R169). -/
def receivePacket (C : Codec) (n : Nat) (s : State) (P : Params := Config.params) : Res (List Byte) :=
  let e := n + P.frameOverhead
  let r := linkRead e s
  match r.1 with
  | .err => .raise { code := .readIo, a := 0, b := sat16 e } r.2
  | .ok bytes =>
    let t := { r.2 with rxFrame := bytes, written := { r.2.written with rxFrame := true } }
    if bytes.length = e then
      if bytes[e - 1]? = some P.terminator then unpackFrame C n t P else discardFrame t P
    else .raise { code := .wrongEncLen, a := sat16 bytes.length, b := sat16 e } t

/-! ### The kind check -/

/-- The request code of the operation that awaits a response. -/
def Exchange.op : Exchange → Byte
  | .echo => Config.opOpenAndSync
  | .rawMode => Config.opSetRawMode
  | .triggerMode => Config.opSetTriggerMode
  | .reading => Config.opReadSensorValue

/-- What the awaiting operation does with a validated response: its kind check, its own state writes and its result (R83, R140, R185 to
R187). The value bytes are read for a sensor value only (R78). -/
def judge (x : Exchange) (kind : Byte) (value : Word16) (s : State) (P : Params := Config.params) : OpRes :=
  match x with
  | .echo =>
    if kind = P.kindSyncOk then .ok none { s with sync := .synced }
    else .raise { code := .notInSync, a := zext16 kind, b := 0 } s
  | .rawMode =>
    if kind = P.kindRawAck then .ok none { s with rawFlag := true, mode := .rawConfigured }
    else .raise { code := .rawModeFailed, a := zext16 kind, b := 0 } s
  | .triggerMode =>
    if kind = P.kindTriggerAck then .ok none { s with mode := .triggerConfigured }
    else .raise { code := .triggerModeFailed, a := zext16 kind, b := 0 } s
  | .reading =>
    if kind = P.kindSensorValue then .ok (some value) s
    else .raise { code := .notSensorReading, a := zext16 kind, b := 0 } s

/-- Receive the awaited response and judge it: the end of every exchange (R61). -/
def awaitResponse (C : Codec) (x : Exchange) (s : State) (P : Params := Config.params) : OpRes :=
  (receivePacket C P.rspLen { s with point := .awaiting x } P).bind fun p t => judge x (kindOf p) (valueOf p) t P

/-- Send the command packet in `S.txPkt`, then receive and judge its response (R61). -/
def exchange (C : Codec) (x : Exchange) (s : State) (P : Params := Config.params) : OpRes :=
  (sendCommand C s.txPkt s P).bind fun _ t => awaitResponse C x t P

/-- A response packet executed where an operation awaits one ends that operation; elsewhere the engine reads no response, so it has no
effect (R222; log entry 5). -/
def respond (kind : Byte) (value : Word16) (s : State) (P : Params := Config.params) : State :=
  match s.point with
  | .awaiting x => complete x.op (judge x kind value s P)
  | .idle => s
  | .building _ => s
  | .draining => s

end Sys2Proof.Machine
end

