-- ==== Sys2Proof/Syntax.lean ====
section
/-! DEFINITION. The instructions: one constructor per row of spec/opcode_table.json, with every field of the row's format
(30_encoding.md R71, R72, R80). A field the spec ignores is a field all the same, since its bits may hold any value (R80). -/

namespace Sys2Proof

/-- The rows of the opcode table, in its order. -/
inductive Instr where
  /-- Command packet SYNC, opcode 0x30, zero payload (R181). -/
  | cmdSync (crc : Word16)
  /-- Command packet RAW, opcode 0x10, zero payload (R182). -/
  | cmdRaw (crc : Word16)
  /-- Command packet TRIGGER, opcode 0x20, two `i16` thresholds (R183). -/
  | cmdTrigger (low high crc : Word16)
  /-- Response packet of kind sensor-value (R187). -/
  | rspSensorValue (value crc : Word16)
  /-- Response packet of kind sync-ok (R140). -/
  | rspSyncOk (value crc : Word16)
  /-- Response packet of kind raw-mode-ack (R185). -/
  | rspRawAck (value crc : Word16)
  /-- Response packet of kind trigger-mode-ack (R186). -/
  | rspTriggerAck (value crc : Word16)
  /-- Response packet of kind unknown-command (R83). -/
  | rspUnknownCommand (value crc : Word16)
  /-- Response packet of kind crc-mismatch (R83). -/
  | rspCrcMismatch (value crc : Word16)
  /-- Response packet of kind wrong-size (R83). -/
  | rspWrongSize (value crc : Word16)
  /-- Response packet whose tag, 0x07 to 0xFF, is in no row above (R83). -/
  | rspUndefinedKind (kind : Byte) (value crc : Word16)
  /-- Host request 0x01 (R131); `a` and `b` are ignored. -/
  | openAndSync (a b : Word16)
  /-- Host request 0x02 (R185); `a` and `b` are ignored. -/
  | setRawMode (a b : Word16)
  /-- Host request 0x03 (R186). -/
  | setTriggerMode (low high : Word16)
  /-- Host request 0x04 (R187); `a` and `b` are ignored. -/
  | readSensorValue (a b : Word16)
  /-- Host request 0x05 (R106); `b` is ignored and the data bytes come on the data channel. -/
  | crc16 (length b : Word16)
  /-- Host request 0x06 (R200); `a` and bits 15:1 of `b` are ignored. -/
  | setDebug (a b : Word16)
  /-- Host request 0x07 (R201); `a` and `b` are ignored. -/
  | close (a b : Word16)
  /-- Reserved request code 0x00 (R202). -/
  | reserved00 (a b : Word16)
  /-- Reserved request codes 0x08 to 0x0F, the code's low three bits given (R202). -/
  | reserved08 (low : BitVec 3) (a b : Word16)
  /-- Reserved request codes 0x10 to 0x1F, the code's low four bits given (R202). -/
  | reserved10 (low : BitVec 4) (a b : Word16)
  /-- Reserved request codes 0x20 to 0x3F, the code's low five bits given (R202). -/
  | reserved20 (low : BitVec 5) (a b : Word16)
  /-- Reserved request codes 0x40 to 0x7F, the code's low six bits given (R202). -/
  | reserved40 (low : BitVec 6) (a b : Word16)
  /-- Reserved request codes 0x80 to 0xFF, the code's low seven bits given (R202). -/
  | reserved80 (low : BitVec 7) (a b : Word16)
  deriving DecidableEq, Repr

/-- The formats an instruction word may have, one per port direction (R70). -/
inductive Format where
  /-- CMD, 7 bytes, engine to sensor (R71). -/
  | cmd
  /-- RSP, 5 bytes, sensor to engine (R72). -/
  | rsp
  /-- HREQ, 40 bits, host to engine (R80). -/
  | hreq
  deriving DecidableEq, Repr

end Sys2Proof
end

