-- ==== Sys2Proof/Machine/Encoder.lean ====
section
/-! DEFINITION. The meanings of the command rows: the command encoder builds the packet into `S.txPkt` (44_commands.md R180 to R183). The
encoder computes the packet's CRC itself, so the word's CRC field is not read. -/

namespace Sys2Proof.Machine

/-- `BuildCmd(OPC_SYNC, 0, 0)` (R181). -/
def buildSync (s : State) (P : Params := Config.params) : State := buildCmd P.opcSync 0x0000 0x0000 s P

/-- `BuildCmd(OPC_RAW, 0, 0)` (R182). -/
def buildRaw (s : State) (P : Params := Config.params) : State := buildCmd P.opcRaw 0x0000 0x0000 s P

/-- `BuildCmd(OPC_TRIGGER, low, high)` (R183). -/
def buildTrigger (low high : Word16) (s : State) (P : Params := Config.params) : State := buildCmd P.opcTrigger low high s P

/-- CMD_SYNC (R181). -/
def execCmdSync (s : State) (P : Params := Config.params) : Host.Outcome State Fault Refusal :=
  .next (buildSync s P)

/-- CMD_RAW (R182). -/
def execCmdRaw (s : State) (P : Params := Config.params) : Host.Outcome State Fault Refusal :=
  .next (buildRaw s P)

/-- CMD_TRIGGER (R183). -/
def execCmdTrigger (low high : Word16) (s : State) (P : Params := Config.params) : Host.Outcome State Fault Refusal :=
  .next (buildTrigger low high s P)

end Sys2Proof.Machine
end

