-- ==== Sys2Proof/Machine/Modes.lean ====
section
/-! DEFINITION. SET_RAW_MODE, SET_TRIGGER_MODE and READ_SENSOR_VALUE (44_commands.md R185 to R187). Each body takes the codec
and the parameters as arguments; each meaning gives it the codec port. -/

namespace Sys2Proof.Machine

/-- `raise Usage(SEQUENCE, S.sync, S.mode)` (R185 to R187, R213). -/
def sequenceError (s : State) : OpRes := .raise { code := .sequence, a := s.sync.diag, b := s.mode.diag } s

/-- SET_RAW_MODE's body (R185). -/
def setRawModeOp (C : Codec) (s : State) (P : Params := Config.params) : OpRes :=
  if s.sync = .synced then exchange C .rawMode (buildRaw s P) P else sequenceError s

/-- SET_TRIGGER_MODE's body: SEQUENCE comes before BAD_THRESHOLDS (R186, decision D41). -/
def setTriggerModeOp (C : Codec) (low high : Word16) (s : State) (P : Params := Config.params) : OpRes :=
  if s.sync = .synced then
    if signedGt low high then .raise { code := .badThresholds, a := low, b := high } s
    else exchange C .triggerMode (buildTrigger low high s P) P
  else sequenceError s

/-- READ_SENSOR_VALUE's body: nothing is sent (R187). -/
def readSensorValueOp (C : Codec) (s : State) (P : Params := Config.params) : OpRes :=
  if s.sync = .synced ∧ s.mode ≠ .idle then awaitResponse C .reading s P else sequenceError s

/-- SET_RAW_MODE (R185). -/
def execSetRawMode (s : State) (P : Params := Config.params) : Host.Outcome State Fault Refusal :=
  .next (hostOp Config.opSetRawMode (fun t => setRawModeOp Config.codec t P) s)

/-- SET_TRIGGER_MODE (R186). -/
def execSetTriggerMode (low high : Word16) (s : State) (P : Params := Config.params) : Host.Outcome State Fault Refusal :=
  .next (hostOp Config.opSetTriggerMode (fun t => setTriggerModeOp Config.codec low high t P) s)

/-- READ_SENSOR_VALUE (R187). -/
def execReadSensorValue (s : State) (P : Params := Config.params) : Host.Outcome State Fault Refusal :=
  .next (hostOp Config.opReadSensorValue (fun t => readSensorValueOp Config.codec t P) s)

end Sys2Proof.Machine
end

