-- ==== Sys2Proof/Machine/Response.lean ====
section
/-! DEFINITION. The meanings of the response rows: the response decoder hands the kind and the value to the operation that awaits a
response, which checks the kind (44_commands.md R184; 30_encoding.md R83). The CRC has been checked before (R168). -/

namespace Sys2Proof.Machine

/-- RSP_SENSOR_VALUE (R187). -/
def execRspSensorValue (value : Word16) (s : State) (P : Params := Config.params) : Host.Outcome State Fault Refusal :=
  .next (respond P.kindSensorValue value s P)

/-- RSP_SYNC_OK (R140). -/
def execRspSyncOk (value : Word16) (s : State) (P : Params := Config.params) : Host.Outcome State Fault Refusal :=
  .next (respond P.kindSyncOk value s P)

/-- RSP_RAW_ACK (R185). -/
def execRspRawAck (value : Word16) (s : State) (P : Params := Config.params) : Host.Outcome State Fault Refusal :=
  .next (respond P.kindRawAck value s P)

/-- RSP_TRIGGER_ACK (R186). -/
def execRspTriggerAck (value : Word16) (s : State) (P : Params := Config.params) : Host.Outcome State Fault Refusal :=
  .next (respond P.kindTriggerAck value s P)

/-- RSP_UNKNOWN_COMMAND: always a kind mismatch (R83). -/
def execRspUnknownCommand (value : Word16) (s : State) (P : Params := Config.params) : Host.Outcome State Fault Refusal :=
  .next (respond P.kindUnknownCommand value s P)

/-- RSP_CRC_MISMATCH: always a kind mismatch (R83). -/
def execRspCrcMismatch (value : Word16) (s : State) (P : Params := Config.params) : Host.Outcome State Fault Refusal :=
  .next (respond P.kindCrcMismatch value s P)

/-- RSP_WRONG_SIZE: always a kind mismatch (R83). -/
def execRspWrongSize (value : Word16) (s : State) (P : Params := Config.params) : Host.Outcome State Fault Refusal :=
  .next (respond P.kindWrongSize value s P)

/-- RSP_UNDEFINED_KIND, any other tag: always a kind mismatch (R83). -/
def execRspUndefinedKind (kind : Byte) (value : Word16) (s : State) (P : Params := Config.params) : Host.Outcome State Fault Refusal :=
  .next (respond kind value s P)

end Sys2Proof.Machine
end

