-- ==== Sys2Proof/WellFormed.lean ====
section
/-! DEFINITION. When an instruction is well formed: a packet's CRC is that of its leading bytes (30_encoding.md R74), a trigger
command's thresholds are in order (44_commands.md R186), and the catch-all response row holds no tag of the table (R77, R83). -/

namespace Sys2Proof

open Machine

/-- The CRC of a command packet with this opcode and payload (R74, R180). -/
def cmdCrc (opc : Byte) (a b : Word16) (P : Params := Config.params) : Word16 :=
  Machine.crc16 [opc, hi a, lo a, hi b, lo b] 5 P

/-- The CRC of a response packet with this kind and value (R74). -/
def rspCrc (kind : Byte) (value : Word16) (P : Params := Config.params) : Word16 :=
  Machine.crc16 [kind, hi value, lo value] 3 P

/-- The tags that R77's table names. -/
def namedKinds (P : Params := Config.params) : List Byte :=
  [P.kindSensorValue, P.kindSyncOk, P.kindRawAck, P.kindTriggerAck, P.kindUnknownCommand,
    P.kindCrcMismatch, P.kindWrongSize]

/-- Well-formedness of an instruction. Every host request is well formed: an ignored field may hold any value (R80), and
thresholds out of order are a usage error of the operation, not an illegal word (R186). -/
def Instr.wellFormed (i : Instr) (P : Params := Config.params) : Bool :=
  match i with
  | .cmdSync crc => crc == cmdCrc P.opcSync 0 0 P
  | .cmdRaw crc => crc == cmdCrc P.opcRaw 0 0 P
  | .cmdTrigger low high crc => !signedGt low high && crc == cmdCrc P.opcTrigger low high P
  | .rspSensorValue value crc => crc == rspCrc P.kindSensorValue value P
  | .rspSyncOk value crc => crc == rspCrc P.kindSyncOk value P
  | .rspRawAck value crc => crc == rspCrc P.kindRawAck value P
  | .rspTriggerAck value crc => crc == rspCrc P.kindTriggerAck value P
  | .rspUnknownCommand value crc => crc == rspCrc P.kindUnknownCommand value P
  | .rspCrcMismatch value crc => crc == rspCrc P.kindCrcMismatch value P
  | .rspWrongSize value crc => crc == rspCrc P.kindWrongSize value P
  | .rspUndefinedKind kind value crc => !(namedKinds P).contains kind && crc == rspCrc kind value P
  | .openAndSync _ _ => true
  | .setRawMode _ _ => true
  | .setTriggerMode _ _ => true
  | .readSensorValue _ _ => true
  | .crc16 _ _ => true
  | .setDebug _ _ => true
  | .close _ _ => true
  | .reserved00 _ _ => true
  | .reserved08 _ _ _ => true
  | .reserved10 _ _ _ => true
  | .reserved20 _ _ _ => true
  | .reserved40 _ _ _ => true
  | .reserved80 _ _ _ => true

end Sys2Proof
end

