-- ==== Sys2Proof/Decode.lean ====
section
/-! DEFINITION. The decoders of the three formats, total on any bytes and rejecting by name, and the encoder
(30_encoding.md R71, R72, R80, R82, R84; the rows of spec/opcode_table.json). -/

namespace Sys2Proof

open Machine

/-- Why a byte sequence is no instruction of its format. -/
inductive DecodeError where
  /-- Not the format's length: 7 bytes for CMD, 5 for RSP and HREQ (R85). -/
  | wrongLength (n : Nat)
  /-- A command opcode other than 0x30, 0x10 and 0x20 (R82). -/
  | unknownOpcode (opcode : Byte)
  /-- A SYNC or RAW command with a payload byte that is not zero (R76). -/
  | nonZeroPayload (opcode : Byte)
  deriving DecidableEq, Repr

/-- The request code of the reserved rows, from the row's fixed bits and the free low bits (R202). -/
def reservedOp08 (low : BitVec 3) : Byte := 0x08 ||| low.setWidth 8
/-- As `reservedOp08`, for 0x10 to 0x1F. -/
def reservedOp10 (low : BitVec 4) : Byte := 0x10 ||| low.setWidth 8
/-- As `reservedOp08`, for 0x20 to 0x3F. -/
def reservedOp20 (low : BitVec 5) : Byte := 0x20 ||| low.setWidth 8
/-- As `reservedOp08`, for 0x40 to 0x7F. -/
def reservedOp40 (low : BitVec 6) : Byte := 0x40 ||| low.setWidth 8
/-- As `reservedOp08`, for 0x80 to 0xFF. -/
def reservedOp80 (low : BitVec 7) : Byte := 0x80 ||| low.setWidth 8

/-- The command decoder: opcode, four payload bytes, CRC (R71, R75, R76). -/
def decodeCmd (bytes : List Byte) (P : Params := Config.params) : Except DecodeError Instr :=
  match bytes with
  | [opc, p0, p1, p2, p3, c1, c0] =>
    if opc = P.opcSync then
      if p0 = 0 ∧ p1 = 0 ∧ p2 = 0 ∧ p3 = 0 then .ok (.cmdSync (be16 c1 c0)) else .error (.nonZeroPayload opc)
    else if opc = P.opcRaw then
      if p0 = 0 ∧ p1 = 0 ∧ p2 = 0 ∧ p3 = 0 then .ok (.cmdRaw (be16 c1 c0)) else .error (.nonZeroPayload opc)
    else if opc = P.opcTrigger then .ok (.cmdTrigger (be16 p0 p1) (be16 p2 p3) (be16 c1 c0))
    else .error (.unknownOpcode opc)
  | bytes => .error (.wrongLength bytes.length)

/-- The response packet with this tag; the row for tags outside R77's table has the lowest priority (R83). -/
def rspInstr (kind : Byte) (value crc : Word16) (P : Params := Config.params) : Instr :=
  if kind = P.kindSensorValue then .rspSensorValue value crc
  else if kind = P.kindSyncOk then .rspSyncOk value crc
  else if kind = P.kindRawAck then .rspRawAck value crc
  else if kind = P.kindTriggerAck then .rspTriggerAck value crc
  else if kind = P.kindUnknownCommand then .rspUnknownCommand value crc
  else if kind = P.kindCrcMismatch then .rspCrcMismatch value crc
  else if kind = P.kindWrongSize then .rspWrongSize value crc
  else .rspUndefinedKind kind value crc

/-- The response decoder: kind, value, CRC (R72, R184). Every tag has a row (R83). -/
def decodeRsp (bytes : List Byte) (P : Params := Config.params) : Except DecodeError Instr :=
  match bytes with
  | [kind, v1, v0, c1, c0] => .ok (rspInstr kind (be16 v1 v0) (be16 c1 c0) P)
  | bytes => .error (.wrongLength bytes.length)

/-- The request with this code (R80, R84). -/
def hreqInstr (op : Byte) (a b : Word16) : Instr :=
  if op = Config.opOpenAndSync then .openAndSync a b
  else if op = Config.opSetRawMode then .setRawMode a b
  else if op = Config.opSetTriggerMode then .setTriggerMode a b
  else if op = Config.opReadSensorValue then .readSensorValue a b
  else if op = Config.opCrc16 then .crc16 a b
  else if op = Config.opSetDebug then .setDebug a b
  else if op = Config.opClose then .close a b
  else if op = 0x00 then .reserved00 a b
  else if op < 0x10 then .reserved08 (op.extractLsb' 0 3) a b
  else if op < 0x20 then .reserved10 (op.extractLsb' 0 4) a b
  else if op < 0x40 then .reserved20 (op.extractLsb' 0 5) a b
  else if op < 0x80 then .reserved40 (op.extractLsb' 0 6) a b
  else .reserved80 (op.extractLsb' 0 7) a b

/-- The request decoder: `op`, `a`, `b` (R80). Every code has a row (R84). -/
def decodeHreq : List Byte → Except DecodeError Instr
  | [op, a1, a0, b1, b0] => .ok (hreqInstr op (be16 a1 a0) (be16 b1 b0))
  | bytes => .error (.wrongLength bytes.length)

/-- The decoder of a format. HREQ and RSP words have the same 40 bits, so only the port a word comes from tells them apart. -/
def decode (f : Format) (bytes : List Byte) (P : Params := Config.params) : Except DecodeError Instr :=
  match f with
  | .cmd => decodeCmd bytes P
  | .rsp => decodeRsp bytes P
  | .hreq => decodeHreq bytes

/-- The format of an instruction's word (the table's column). -/
def Instr.format : Instr → Format
  | .cmdSync _ => .cmd
  | .cmdRaw _ => .cmd
  | .cmdTrigger _ _ _ => .cmd
  | .rspSensorValue _ _ => .rsp
  | .rspSyncOk _ _ => .rsp
  | .rspRawAck _ _ => .rsp
  | .rspTriggerAck _ _ => .rsp
  | .rspUnknownCommand _ _ => .rsp
  | .rspCrcMismatch _ _ => .rsp
  | .rspWrongSize _ _ => .rsp
  | .rspUndefinedKind _ _ _ => .rsp
  | .openAndSync _ _ => .hreq
  | .setRawMode _ _ => .hreq
  | .setTriggerMode _ _ => .hreq
  | .readSensorValue _ _ => .hreq
  | .crc16 _ _ => .hreq
  | .setDebug _ _ => .hreq
  | .close _ _ => .hreq
  | .reserved00 _ _ => .hreq
  | .reserved08 _ _ _ => .hreq
  | .reserved10 _ _ _ => .hreq
  | .reserved20 _ _ _ => .hreq
  | .reserved40 _ _ _ => .hreq
  | .reserved80 _ _ _ => .hreq

/-- A command packet's bytes (R71). -/
def encodeCmd (opc : Byte) (a b crc : Word16) : List Byte := [opc, hi a, lo a, hi b, lo b, hi crc, lo crc]

/-- A response packet's bytes (R72). -/
def encodeRsp (kind : Byte) (value crc : Word16) : List Byte := [kind, hi value, lo value, hi crc, lo crc]

/-- A request word's bytes, most significant first (R80). -/
def encodeHreq (op : Byte) (a b : Word16) : List Byte := [op, hi a, lo a, hi b, lo b]

/-- The bytes of an instruction's word, most significant first. -/
def encode (i : Instr) (P : Params := Config.params) : List Byte :=
  match i with
  | .cmdSync crc => encodeCmd P.opcSync 0 0 crc
  | .cmdRaw crc => encodeCmd P.opcRaw 0 0 crc
  | .cmdTrigger low high crc => encodeCmd P.opcTrigger low high crc
  | .rspSensorValue value crc => encodeRsp P.kindSensorValue value crc
  | .rspSyncOk value crc => encodeRsp P.kindSyncOk value crc
  | .rspRawAck value crc => encodeRsp P.kindRawAck value crc
  | .rspTriggerAck value crc => encodeRsp P.kindTriggerAck value crc
  | .rspUnknownCommand value crc => encodeRsp P.kindUnknownCommand value crc
  | .rspCrcMismatch value crc => encodeRsp P.kindCrcMismatch value crc
  | .rspWrongSize value crc => encodeRsp P.kindWrongSize value crc
  | .rspUndefinedKind kind value crc => encodeRsp kind value crc
  | .openAndSync a b => encodeHreq Config.opOpenAndSync a b
  | .setRawMode a b => encodeHreq Config.opSetRawMode a b
  | .setTriggerMode low high => encodeHreq Config.opSetTriggerMode low high
  | .readSensorValue a b => encodeHreq Config.opReadSensorValue a b
  | .crc16 length b => encodeHreq Config.opCrc16 length b
  | .setDebug a b => encodeHreq Config.opSetDebug a b
  | .close a b => encodeHreq Config.opClose a b
  | .reserved00 a b => encodeHreq 0x00 a b
  | .reserved08 low a b => encodeHreq (reservedOp08 low) a b
  | .reserved10 low a b => encodeHreq (reservedOp10 low) a b
  | .reserved20 low a b => encodeHreq (reservedOp20 low) a b
  | .reserved40 low a b => encodeHreq (reservedOp40 low) a b
  | .reserved80 low a b => encodeHreq (reservedOp80 low) a b

/-- The instruction's row in spec/opcode_table.json: mnemonic, match and mask, the word read as one number with byte 0 in its
highest bits (R71, R72, R80). -/
def Instr.row : Instr → String × Nat × Nat
  | .cmdSync _ => ("CMD_SYNC", 0x30000000000000, 0xFFFFFFFFFF0000)
  | .cmdRaw _ => ("CMD_RAW", 0x10000000000000, 0xFFFFFFFFFF0000)
  | .cmdTrigger _ _ _ => ("CMD_TRIGGER", 0x20000000000000, 0xFF000000000000)
  | .rspSensorValue _ _ => ("RSP_SENSOR_VALUE", 0x0000000000, 0xFF00000000)
  | .rspSyncOk _ _ => ("RSP_SYNC_OK", 0x0100000000, 0xFF00000000)
  | .rspRawAck _ _ => ("RSP_RAW_ACK", 0x0200000000, 0xFF00000000)
  | .rspTriggerAck _ _ => ("RSP_TRIGGER_ACK", 0x0300000000, 0xFF00000000)
  | .rspUnknownCommand _ _ => ("RSP_UNKNOWN_COMMAND", 0x0400000000, 0xFF00000000)
  | .rspCrcMismatch _ _ => ("RSP_CRC_MISMATCH", 0x0500000000, 0xFF00000000)
  | .rspWrongSize _ _ => ("RSP_WRONG_SIZE", 0x0600000000, 0xFF00000000)
  | .rspUndefinedKind _ _ _ => ("RSP_UNDEFINED_KIND", 0x0000000000, 0x0000000000)
  | .openAndSync _ _ => ("OPEN_AND_SYNC", 0x0100000000, 0xFF00000000)
  | .setRawMode _ _ => ("SET_RAW_MODE", 0x0200000000, 0xFF00000000)
  | .setTriggerMode _ _ => ("SET_TRIGGER_MODE", 0x0300000000, 0xFF00000000)
  | .readSensorValue _ _ => ("READ_SENSOR_VALUE", 0x0400000000, 0xFF00000000)
  | .crc16 _ _ => ("CRC16", 0x0500000000, 0xFF00000000)
  | .setDebug _ _ => ("SET_DEBUG", 0x0600000000, 0xFF00000000)
  | .close _ _ => ("CLOSE", 0x0700000000, 0xFF00000000)
  | .reserved00 _ _ => ("RESERVED", 0x0000000000, 0xFF00000000)
  | .reserved08 _ _ _ => ("RESERVED", 0x0800000000, 0xF800000000)
  | .reserved10 _ _ _ => ("RESERVED", 0x1000000000, 0xF000000000)
  | .reserved20 _ _ _ => ("RESERVED", 0x2000000000, 0xE000000000)
  | .reserved40 _ _ _ => ("RESERVED", 0x4000000000, 0xC000000000)
  | .reserved80 _ _ _ => ("RESERVED", 0x8000000000, 0x8000000000)

/-- What the engine decodes from a table word. A word of up to 40 bits is a host request, which is what the engine fetches; the
40-bit responses share its words and have `decode .rsp` (log entry 3). A longer word is a command packet. -/
def decodeTableWord (nbits w : Nat) : Option Instr :=
  if nbits ≤ 40 then (decode .hreq (beBytes 5 w)).toOption
  else if nbits ≤ 56 then (decode .cmd (beBytes 7 w)).toOption
  else none

end Sys2Proof
end

