-- ==== Sys2Proof/Machine/Session.lean ====
section
/-! DEFINITION. The link-free host operations: CRC16 (40_crc.md R106), SET_DEBUG, CLOSE and the reserved codes (45_session.md R200 to
R202). CLOSE's one link event is the close itself. -/

namespace Sys2Proof.Machine

/-- CRC16's body (R106). -/
def crc16Op (length : Word16) (s : State) (P : Params := Config.params) : OpRes :=
  let data := dataBytes length.toNat s
  let r := crcUnit data length.toNat (s.drewData length.toNat) P
  .ok (some r.1) r.2

/-- SET_DEBUG's body (R200): only `b[0]` is read. -/
def setDebugOp (b : Word16) (s : State) : OpRes := .ok none { s with debug := b.getLsbD 0 }

/-- The four fields that CLOSE writes and OPEN_AND_SYNC starts with (R131, R201). -/
def State.closed (s : State) : State :=
  { s with link := .closed, regime := .unconfigured, sync := .unsynced, mode := .idle }

/-- `if S.link == Open: LinkClose()` (R131, R201). -/
def closeIfOpen (s : State) : State := if s.link = .opened then linkClose s else s

/-- CLOSE's body (R201). -/
def closeOp (s : State) : OpRes := .ok none (closeIfOpen s).closed

/-- `ILLEGAL(op)` (R202). -/
def illegalOp (op : Byte) (s : State) : OpRes := .raise { code := .illegalOp, a := zext16 op, b := 0 } s

/-- CRC16 (R106). -/
def execCrc16 (length : Word16) (s : State) (P : Params := Config.params) : Host.Outcome State Fault Refusal :=
  .next (hostOp Config.opCrc16 (fun t => crc16Op length t P) s)

/-- SET_DEBUG (R200). -/
def execSetDebug (b : Word16) (s : State) : Host.Outcome State Fault Refusal :=
  .next (hostOp Config.opSetDebug (setDebugOp b) s)

/-- CLOSE (R201). -/
def execClose (s : State) : Host.Outcome State Fault Refusal := .next (hostOp Config.opClose closeOp s)

/-- A reserved request code, whichever row it is in (R202). -/
def reservedOp (op : Byte) (s : State) : State := hostOp op (illegalOp op) s

/-- RESERVED 0x00 (R202). -/
def execReserved00 (s : State) : Host.Outcome State Fault Refusal := .next (reservedOp 0x00 s)

/-- RESERVED 0x08 to 0x0F (R202). -/
def execReserved08 (low : BitVec 3) (s : State) : Host.Outcome State Fault Refusal := .next (reservedOp (reservedOp08 low) s)

/-- RESERVED 0x10 to 0x1F (R202). -/
def execReserved10 (low : BitVec 4) (s : State) : Host.Outcome State Fault Refusal := .next (reservedOp (reservedOp10 low) s)

/-- RESERVED 0x20 to 0x3F (R202). -/
def execReserved20 (low : BitVec 5) (s : State) : Host.Outcome State Fault Refusal := .next (reservedOp (reservedOp20 low) s)

/-- RESERVED 0x40 to 0x7F (R202). -/
def execReserved40 (low : BitVec 6) (s : State) : Host.Outcome State Fault Refusal := .next (reservedOp (reservedOp40 low) s)

/-- RESERVED 0x80 to 0xFF (R202). -/
def execReserved80 (low : BitVec 7) (s : State) : Host.Outcome State Fault Refusal := .next (reservedOp (reservedOp80 low) s)

end Sys2Proof.Machine
end

