-- ==== Sys2Proof/Machine/Sync.lean ====
section
/-! DEFINITION. OPEN_AND_SYNC, the frame synchronizer's bring-up (42_sync.md R130 to R141). The drain has no bound (R137): the operation does
the drain reads whose answers are known, and at least one; a drain that has not ended by then leaves the engine busy, and each
later step goes on with it (log entry 4). -/

namespace Sys2Proof.Machine

/-- Step 1: open the link, in a fresh session, and configure the drain regime (R131, R132). -/
def openLink (s : State) (P : Params := Config.params) : Res Unit :=
  let r := linkOpen (closeIfOpen s).closed
  match r.1 with
  | .err e => .raise { code := e.code, a := 0, b := 0 } r.2
  | .ok =>
    let c := linkConfigure P.drainMin P.drainTimeoutDs { r.2 with link := .opened }
    match c.1 with
    | .err => .raise { code := .linkAttr, a := 0, b := 0 } c.2
    | .ok => .ok () { c.2 with regime := .drain, sync := .seekingHeader }

/-- The probe's loop with `n` attempts left of its budget (R133). The byte's value is not examined (R135). -/
def probeLoop (C : Codec) (pkt : List Byte) (n : Nat) (s : State) (P : Params := Config.params) : Res Unit :=
  match n with
  | 0 => .raise { code := .syncExhausted, a := sat16 s.syncCount, b := 0 } s
  | n + 1 =>
    (sendCommand C pkt s P).bind fun _ t =>
      let r := linkRead 1 { t with syncCount := t.syncCount + 1 }
      match r.1 with
      | .err => .raise { code := .readIo, a := 0, b := 1 } r.2
      | .ok bytes => if bytes.length = 1 then .ok () r.2 else probeLoop C pkt n r.2 P

/-- Step 2, `Probe(pkt)` (R133, R134). -/
def probe (C : Codec) (pkt : List Byte) (s : State) (P : Params := Config.params) : Res Unit :=
  probeLoop C pkt P.syncAttempts { s with syncCount := 0 } P

/-- Up to `n` reads of the drain's loop (R136). A drain that outlasts them has not ended. -/
def drainLoop (n : Nat) (s : State) (P : Params := Config.params) : Res Unit :=
  match n with
  | 0 => .running s
  | n + 1 =>
    let r := linkRead P.drainChunk s
    match r.1 with
    | .err => .raise { code := .readIo, a := 0, b := sat16 P.drainChunk } r.2
    | .ok bytes => if bytes.length = 0 then .ok () r.2 else drainLoop n r.2 P

/-- Step 3, `Drain()`, as far as this step takes it (R136, R137). -/
def drain (s : State) (P : Params := Config.params) : Res Unit := drainLoop (max 1 s.oracle.reads.length) s P

/-- Steps 4 to 6: settle, configure the blocking regime, echo (R138 to R140). -/
def echo (C : Codec) (s : State) (P : Params := Config.params) : OpRes :=
  let c := linkConfigure P.blockMin P.blockTimeoutDs (linkSleep P.settleDs s)
  match c.1 with
  | .err => .raise { code := .linkAttr, a := 0, b := 0 } c.2
  | .ok => exchange C .echo { c.2 with regime := .blocking, sync := .awaitingEcho } P

/-- Steps 3 to 6. -/
def drainAndEcho (C : Codec) (s : State) (P : Params := Config.params) : OpRes := (drain s P).bind fun _ t => echo C t P

/-- Steps 1 and 2, up to `S.sync <- DrainingGarbage` (R131). -/
def openAndProbe (C : Codec) (s : State) (P : Params := Config.params) : Res Unit :=
  (openLink s P).bind fun _ t =>
    (probe C (buildSync t P).txPkt (buildSync t P) P).bind fun _ u =>
      .ok () { u with sync := .drainingGarbage, point := .draining }

/-- OPEN_AND_SYNC's body (R131). -/
def openAndSyncOp (C : Codec) (s : State) (P : Params := Config.params) : OpRes := (openAndProbe C s P).bind fun _ t => drainAndEcho C t P

/-- OPEN_AND_SYNC (R131). -/
def execOpenAndSync (s : State) (P : Params := Config.params) : Host.Outcome State Fault Refusal :=
  .next (hostOp Config.opOpenAndSync (fun t => openAndSyncOp Config.codec t P) s)

/-- An OPEN_AND_SYNC whose drain had not ended goes on with it (R137, R206). -/
def resumeDrain (C : Codec) (s : State) (P : Params := Config.params) : State := complete Config.opOpenAndSync (drainAndEcho C s P)

end Sys2Proof.Machine
end

