-- ==== Sys2Proof/Machine/Dispatch.lean ====
section
/-! DEFINITION. What each instruction does: one arm per constructor, each one call of the instruction's own meaning. -/

namespace Sys2Proof.Machine

/-- The meaning of an instruction (30_encoding.md R75, R77, R80; 45_session.md R204). -/
def exec (i : Instr) (s : State) : Host.Outcome State Fault Refusal :=
  match i with
  | .cmdSync _ => Sys2Proof.Machine.execCmdSync s
  | .cmdRaw _ => Sys2Proof.Machine.execCmdRaw s
  | .cmdTrigger low high _ => Sys2Proof.Machine.execCmdTrigger low high s
  | .rspSensorValue value _ => Sys2Proof.Machine.execRspSensorValue value s
  | .rspSyncOk value _ => Sys2Proof.Machine.execRspSyncOk value s
  | .rspRawAck value _ => Sys2Proof.Machine.execRspRawAck value s
  | .rspTriggerAck value _ => Sys2Proof.Machine.execRspTriggerAck value s
  | .rspUnknownCommand value _ => Sys2Proof.Machine.execRspUnknownCommand value s
  | .rspCrcMismatch value _ => Sys2Proof.Machine.execRspCrcMismatch value s
  | .rspWrongSize value _ => Sys2Proof.Machine.execRspWrongSize value s
  | .rspUndefinedKind kind value _ => Sys2Proof.Machine.execRspUndefinedKind kind value s
  | .openAndSync _ _ => Sys2Proof.Machine.execOpenAndSync s
  | .setRawMode _ _ => Sys2Proof.Machine.execSetRawMode s
  | .setTriggerMode low high => Sys2Proof.Machine.execSetTriggerMode low high s
  | .readSensorValue _ _ => Sys2Proof.Machine.execReadSensorValue s
  | .crc16 length _ => Sys2Proof.Machine.execCrc16 length s
  | .setDebug _ b => Sys2Proof.Machine.execSetDebug b s
  | .close _ _ => Sys2Proof.Machine.execClose s
  | .reserved00 _ _ => Sys2Proof.Machine.execReserved00 s
  | .reserved08 low _ _ => Sys2Proof.Machine.execReserved08 low s
  | .reserved10 low _ _ => Sys2Proof.Machine.execReserved10 low s
  | .reserved20 low _ _ => Sys2Proof.Machine.execReserved20 low s
  | .reserved40 low _ _ => Sys2Proof.Machine.execReserved40 low s
  | .reserved80 low _ _ => Sys2Proof.Machine.execReserved80 low s

end Sys2Proof.Machine
end

