-- ==== Sys2Proof/Machine/HostPort.lean ====
section
/-! DEFINITION. The host port: accepting a request, the response word HRSP, the fields the host may read, and reset
(10_state.md R33, R37; 30_encoding.md R80, R81; 45_session.md R203; 70_reset_and_hazards.md R240). -/

namespace Sys2Proof.Machine

/-- The bytes of an HREQ word, byte 0 in bits 39:32 (R80). -/
def Request.bytes (r : Request) : List Byte := beBytes 5 r.word.toNat

/-- Take the request off the port: its data bytes are the operation's data channel (R106, R204). -/
def State.takeRequest (r : Request) (rest : List Request) (s : State) : State := { s with requests := rest, reqData := r.data }

/-- HRSP (R81). -/
structure Hrsp where
  cls : BitVec 3
  code : BitVec 8
  result : BitVec 16
  diagA : BitVec 16
  diagB : BitVec 16
  deriving DecidableEq, Repr

/-- The response the host reads when an operation has ended (R81). -/
def State.hrsp (s : State) : Hrsp :=
  { cls := s.status.cls.num, code := s.status.code, result := s.result, diagA := s.diagA, diagB := s.diagB }

/-- The fields the host may read beside HRSP: with HRSP's, every field of R22 but the buffers, `S.crcReg` and the counters (R37). -/
structure HostView where
  link : LinkState
  regime : Regime
  sync : SyncState
  mode : Mode
  rawFlag : Bool
  debug : Bool
  busy : Bool
  trace : List Event
  deriving DecidableEq, Repr

/-- What the host reads of the state beside HRSP (R37). -/
def State.hostView (s : State) : HostView :=
  { link := s.link, regime := s.regime, sync := s.sync, mode := s.mode, rawFlag := s.rawFlag, debug := s.debug,
    busy := s.busy, trace := s.trace }

/-- Reset: every field of the engine at its value of R41 and an empty trace (R240). The world at the ports, the requests the host still
offers, the link's answers and the further resets, is not the engine's and stays. -/
def State.applyReset (s : State) : State :=
  { State.reset with requests := s.requests, oracle := s.oracle, resets := s.resets.tail }

/-- The link's answers after an event: the one that the event's primitive took is gone (R40, R116 to R119). -/
def Oracle.after (o : Oracle) : Event → Oracle
  | .linkOpen _ => o.takeOpen.2
  | .config _ _ _ => o.takeConfigure.2
  | .tx bytes _ => (o.takeWrite bytes.length).2
  | .rx maxLen _ => (o.takeRead maxLen).2
  | .sleep _ => o
  | .close => o
  | .done _ _ _ _ _ => o

/-- The events that a step from `s` to `t` recorded. -/
def State.recorded (s t : State) : List Event := t.trace.drop s.trace.length

/-- A step that would lead from `s` to `t`, where reset comes `k` moments after its start (R240). Where the step records more than `k` events,
reset cuts it off after the `k`-th: the answers those events took are taken, the request is off the port, and of the engine nothing is left,
so no `DONE` and no status. Else the step runs whole, and reset comes that much sooner. -/
def State.cutAt (k : Nat) (s t : State) : State :=
  if k < (s.recorded t).length then { t with oracle := ((s.recorded t).take k).foldl Oracle.after s.oracle }.applyReset
  else { t with resets := (k - (s.recorded t).length) :: t.resets.tail }

end Sys2Proof.Machine
end

