-- ==== Sys2Proof/Machine/Fetch.lean ====
section
/-! DEFINITION. What one step of the engine is at each point of its sequencing: taking a request, building a command, going on with a
drain, or taking a response (R21, R203, R204, R206). It stands here, beside Step.lean, so that a repair may mend it. -/

namespace Sys2Proof.Machine

/-- No operation runs: the next request is decoded and executed. Without one the engine waits (R242), and while `S.busy` holds the
port accepts none (R203). -/
def stepIdle (s : State) : Host.Outcome State Fault Refusal :=
  match s.requests with
  | [] => .next s
  | r :: rest =>
    if s.busy then .next s
    else
      match decode .hreq r.bytes with
      | .ok i => exec i (s.takeRequest r rest)
      | .error _ => .refused .undefinedCommand

/-- The command encoder's command is decoded and executed, and the encoder is free again. -/
def stepBuilding (command : List Byte) (s : State) : Host.Outcome State Fault Refusal :=
  match decode .cmd command with
  | .ok i => exec i { s with point := .idle }
  | .error _ => .refused .undefinedCommand

/-- The drain goes on; the packet that step 6 sends must be one this operation has built (R42, R137). -/
def stepDraining (s : State) : Host.Outcome State Fault Refusal :=
  if s.written.txPkt then .next (resumeDrain Config.codec s) else .fault .unspecifiedRead

/-- A response is received, decoded and executed; an error of ReceivePacket ends the operation (R162, R170). -/
def stepAwaiting (x : Exchange) (s : State) : Host.Outcome State Fault Refusal :=
  match receivePacket Config.codec Config.rspLen s with
  | .ok p t =>
    match decode .rsp p with
    | .ok i => exec i t
    | .error _ => .refused .undefinedCommand
  | .raise e t => .next (complete x.op (.raise e t))
  | .running t => .next t

/-- One step of the engine where no reset comes. -/
def stepRunning (s : State) : Host.Outcome State Fault Refusal :=
  match s.point with
  | .idle => stepIdle s
  | .building command => stepBuilding command s
  | .draining => stepDraining s
  | .awaiting x => stepAwaiting x s

/-- The outcome of a step from `s` where reset comes `k` moments after its start (R240). -/
def cutOutcome (k : Nat) (s : State) : Host.Outcome State Fault Refusal → Host.Outcome State Fault Refusal
  | .next t => .next (s.cutAt k t)
  | .fault f => .fault f
  | .refused r => .refused r

/-- One step. Reset comes at any time: before the step, inside it, or not (R240, R241). -/
def stepEngine (s : State) : Host.Outcome State Fault Refusal :=
  match s.resets with
  | [] => stepRunning s
  | 0 :: _ => .next s.applyReset
  | (k + 1) :: _ => cutOutcome k s (stepRunning s)

/-- The state whose next step runs the table word: a host request offered at the port, or a command given to the encoder. -/
def placeWord (s : State) (nbits w : Nat) : State :=
  if nbits ≤ 40 then
    { s with point := .idle, busy := false, resets := [], requests := { word := BitVec.ofNat 40 w, data := [] } :: s.requests }
  else { s with point := .building (beBytes 7 w), busy := false, resets := [] }

end Sys2Proof.Machine
end

