-- ==== Sys2Proof/Safety.lean ====
section
/-! DEFINITION. What claims are stated in: the invariants of the engine (10_state.md R38), the discipline of the trace (41_link_and_codec.md R115,
20_memory.md R56), and names for the groups of instructions and outcomes that the rules speak of. -/

namespace Sys2Proof.Machine

/-! ### Invariants of the state -/

/-- The four invariants that hold between operations (R38). -/
structure State.BetweenOps (s : State) : Prop where
  synced : s.sync = .synced → s.link = .opened ∧ s.regime = .blocking
  configured : s.mode ≠ .idle → s.sync = .synced
  settled : s.sync = .unsynced ∨ s.sync = .synced
  closed : s.link = .closed → s.sync = .unsynced ∧ s.mode = .idle

/-- An operation runs at this point (R33). -/
def Point.running : Point → Bool
  | .idle => false
  | .building _ => false
  | .draining => true
  | .awaiting _ => true

/-- What holds of the synchronizer's fields at each point of the sequencing (R38, R131, R185 to R187). -/
def State.AtPoint (s : State) : Prop :=
  match s.point with
  | .idle => s.BetweenOps
  | .building _ => s.BetweenOps
  | .draining =>
    s.link = .opened ∧ s.regime = .drain ∧ s.sync = .drainingGarbage ∧ s.mode = .idle ∧ s.written.txPkt = true ∧
      s.txPkt = cmdPacket 0x30 0 0
  | .awaiting .echo => s.link = .opened ∧ s.regime = .blocking ∧ s.sync = .awaitingEcho ∧ s.mode = .idle
  | .awaiting .rawMode => s.link = .opened ∧ s.regime = .blocking ∧ s.sync = .synced
  | .awaiting .triggerMode => s.link = .opened ∧ s.regime = .blocking ∧ s.sync = .synced
  | .awaiting .reading => s.link = .opened ∧ s.regime = .blocking ∧ s.sync = .synced ∧ s.mode ≠ .idle

/-- The class of a status is a function of its code (R212). -/
def Status.Consistent (st : Status) : Prop := st = Status.success ∨ ∃ c, st = Status.ofError c

/-- The widths of the buffers an operation has written (R32). -/
structure State.BufferWidths (s : State) : Prop where
  txPkt : s.written.txPkt = true → s.txPkt.length = 7
  txFrame : s.written.txFrame = true → s.txFrame.length = 9
  rxFrame : s.written.rxFrame = true → s.rxFrame.length ≤ 7
  rxPkt : s.written.rxPkt = true → s.rxPkt.length = 5

/-- The invariant of the engine. -/
structure State.Inv (s : State) : Prop where
  busy : s.busy = s.point.running
  atPoint : s.AtPoint
  syncCount : s.syncCount ≤ 100
  resyncCount : s.resyncCount ≤ 100
  status : s.status.Consistent
  buffers : s.BufferWidths

/-! ### The discipline of the trace -/

/-- A command the engine may send: SYNC or RAW with a zero payload, or TRIGGER with its thresholds in order (R75, R76, R186). -/
def SendsCommand (frame : List Byte) : Prop :=
  frame = Config.codec.enc (cmdPacket 0x30 0 0) ∨ frame = Config.codec.enc (cmdPacket 0x10 0 0) ∨
    ∃ low high : Word16, low.toInt ≤ high.toInt ∧ frame = Config.codec.enc (cmdPacket 0x20 low high)

/-- An event with the arguments and answers the port contracts allow (R56, R116 to R121). -/
def Event.Legal : Event → Prop
  | .linkOpen _ => True
  | .config min tds _ => (min = 0 ∧ tds = 0) ∨ (min = 7 ∧ tds = 10)
  | .tx frame r => SendsCommand frame ∧ frame.length = 9 ∧ ∀ n, r = .ok n → n ≤ 9
  | .rx maxLen r => (maxLen = 1 ∨ maxLen = 7) ∧ ∀ bytes, r = .ok bytes → bytes.length ≤ maxLen
  | .sleep tds => tds = 20
  | .close => True
  | .done _ st _ _ _ => st.Consistent

/-- Every event of the trace is legal. -/
def State.TraceLegal (s : State) : Prop := ∀ e ∈ s.trace, e.Legal

/-- The link session after an event, or nothing where the event may not happen then: `LinkOpen` needs a closed link, every other link
primitive an open one (R115). -/
def Event.linkAfter (l : LinkState) (e : Event) : Option LinkState :=
  match e, l with
  | .linkOpen .ok, .closed => some .opened
  | .linkOpen (.err _), .closed => some .closed
  | .linkOpen _, .opened => none
  | .config _ _ _, .opened => some .opened
  | .tx _ _, .opened => some .opened
  | .rx _ _, .opened => some .opened
  | .sleep _, .opened => some .opened
  | .close, .opened => some .closed
  | .config _ _ _, .closed => none
  | .tx _ _, .closed => none
  | .rx _ _, .closed => none
  | .sleep _, .closed => none
  | .close, .closed => none
  | .done _ _ _ _ _, l => some l

/-- The link session after a whole trace that starts with a closed link. -/
def linkAfter (trace : List Event) : Option LinkState := trace.foldlM Event.linkAfter .closed

/-- The trace touches the link only while it is open, and `S.link` is what the trace left (R23, R115). -/
def State.LinkDisciplined (s : State) : Prop := linkAfter s.trace = some s.link

end Sys2Proof.Machine

namespace Sys2Proof

/-! ### Comparing parameters -/

/-- The parameters tell the response kinds apart, and the command opcodes. -/
def Params.Unambiguous (P : Params) : Prop := (namedKinds P).Nodup ∧ [P.opcSync, P.opcRaw, P.opcTrigger].Nodup

/-- The parameters with other arguments of the two `configure` calls and another settle time (R10). -/
def Params.withDelays (drainMin drainTimeoutDs blockMin blockTimeoutDs settleDs : Nat) (P : Params) : Params :=
  { P with
    drainMin := drainMin, drainTimeoutDs := drainTimeoutDs, blockMin := blockMin, blockTimeoutDs := blockTimeoutDs, settleDs := settleDs }

/-! ### Groups of instructions -/

/-- The request code of a host request, as R80's table gives it. -/
def Instr.requestCode : Instr → Option Byte
  | .openAndSync _ _ => some 0x01
  | .setRawMode _ _ => some 0x02
  | .setTriggerMode _ _ => some 0x03
  | .readSensorValue _ _ => some 0x04
  | .crc16 _ _ => some 0x05
  | .setDebug _ _ => some 0x06
  | .close _ _ => some 0x07
  | .reserved00 _ _ => some 0x00
  | .reserved08 low _ _ => some (0x08 ||| low.setWidth 8)
  | .reserved10 low _ _ => some (0x10 ||| low.setWidth 8)
  | .reserved20 low _ _ => some (0x20 ||| low.setWidth 8)
  | .reserved40 low _ _ => some (0x40 ||| low.setWidth 8)
  | .reserved80 low _ _ => some (0x80 ||| low.setWidth 8)
  | .cmdSync _ => none
  | .cmdRaw _ => none
  | .cmdTrigger _ _ _ => none
  | .rspSensorValue _ _ => none
  | .rspSyncOk _ _ => none
  | .rspRawAck _ _ => none
  | .rspTriggerAck _ _ => none
  | .rspUnknownCommand _ _ => none
  | .rspCrcMismatch _ _ => none
  | .rspWrongSize _ _ => none
  | .rspUndefinedKind _ _ _ => none

/-- The kind byte and the value word of a response packet (R72, R77). -/
def Instr.response : Instr → Option (Byte × Word16)
  | .rspSensorValue value _ => some (0x00, value)
  | .rspSyncOk value _ => some (0x01, value)
  | .rspRawAck value _ => some (0x02, value)
  | .rspTriggerAck value _ => some (0x03, value)
  | .rspUnknownCommand value _ => some (0x04, value)
  | .rspCrcMismatch value _ => some (0x05, value)
  | .rspWrongSize value _ => some (0x06, value)
  | .rspUndefinedKind kind value _ => some (kind, value)
  | .cmdSync _ => none
  | .cmdRaw _ => none
  | .cmdTrigger _ _ _ => none
  | .openAndSync _ _ => none
  | .setRawMode _ _ => none
  | .setTriggerMode _ _ => none
  | .readSensorValue _ _ => none
  | .crc16 _ _ => none
  | .setDebug _ _ => none
  | .close _ _ => none
  | .reserved00 _ _ => none
  | .reserved08 _ _ _ => none
  | .reserved10 _ _ _ => none
  | .reserved20 _ _ _ => none
  | .reserved40 _ _ _ => none
  | .reserved80 _ _ _ => none

end Sys2Proof

namespace Sys2Proof.Machine

/-! ### Outcomes -/

/-- The engine after an operation ended with this status from the state `s`, if it changed nothing else (R205, R218); the buffers and
`S.crcReg` keep their contents (log entry 18). -/
def State.ended (op : Byte) (st : Status) (a b : Word16) (s : State) : State :=
  { s with
    status := st, diagA := a, diagB := b, trace := s.trace ++ [.done op st a b s.result]
    written := Written.nothing, busy := false, point := .idle, reqData := [] }

/-- The packet of a response with this kind and value, its CRC included (R72, R74). -/
def rspPacket (kind : Byte) (value : Word16) : List Byte :=
  let c := crc16 [kind, hi value, lo value] 3
  [kind, hi value, lo value, hi c, lo c]

/-- A frame that ReceivePacket accepts as this response: seven bytes, the last one 0x00, decoding to the packet (R162). -/
def FrameOf (f : List Byte) (kind : Byte) (value : Word16) : Prop :=
  f.length = 7 ∧ f[6]? = some 0x00 ∧ Config.codec.dec f = some (rspPacket kind value)

/-- What a reading of this response leaves in the receive buffers and the CRC register (R162). -/
def State.holding (f : List Byte) (kind : Byte) (value : Word16) (s : State) : State :=
  { s with rxFrame := f, rxPkt := rspPacket kind value, crcReg := crcRun 0xFFFF [kind, hi value, lo value] }

/-- What building this command leaves (R180): the packet, opcode, big-endian payload and big-endian CRC, and the CRC register. -/
def State.built (opc : Byte) (a b : Word16) (s : State) : State :=
  let c := crc16 [opc, hi a, lo a, hi b, lo b] 5
  { s with
    txPkt := [opc, hi a, lo a, hi b, lo b, hi c, lo c], crcReg := crcRun 0xFFFF [opc, hi a, lo a, hi b, lo b]
    written := { s.written with crcReg := true, txPkt := true } }

/-- What sending this command leaves in the transmit buffers (R160, R180). -/
def State.sending (opc : Byte) (a b : Word16) (s : State) : State :=
  { s with txPkt := cmdPacket opc a b, txFrame := Config.codec.enc (cmdPacket opc a b) }

/-! ### Comparing steps -/

/-- The outcome with its next state changed. -/
def mapNext (f : State → State) : Host.Outcome State Fault Refusal → Host.Outcome State Fault Refusal
  | .next s => .next (f s)
  | .fault r => .fault r
  | .refused r => .refused r

/-- The values of R41's table, with the fields it leaves unspecified marked unwritten. -/
structure State.AtReset (s : State) : Prop where
  link : s.link = .closed
  regime : s.regime = .unconfigured
  sync : s.sync = .unsynced
  mode : s.mode = .idle
  rawFlag : s.rawFlag = false
  debug : s.debug = false
  syncCount : s.syncCount = 0
  resyncCount : s.resyncCount = 0
  written : s.written = Written.nothing
  busy : s.busy = false
  status : s.status = { cls := .none, code := 0x00 }
  diagA : s.diagA = 0
  diagB : s.diagB = 0
  result : s.result = 0
  trace : s.trace = []

/-- The request code of the operation that runs at this point. -/
def Point.op : Point → Option Byte
  | .idle => none
  | .building _ => none
  | .draining => some 0x01
  | .awaiting x => some x.op

/-- The operation with this request code runs from `s` to `t`: its request is executed from `s`, or a step, with no reset to come, goes on
with it from the point where it runs in `s`. -/
def State.RunsTo (op : Byte) (s t : State) : Prop :=
  (∃ i : Instr, i.requestCode = some op ∧ exec i s = .next t) ∨ (s.resets = [] ∧ s.point.op = some op ∧ step s = .next t)

/-- The operation with this request code runs from `s` and has ended in `t`, whether one step ran it whole or this is the last of several. -/
def State.EndsIn (op : Byte) (s t : State) : Prop := t.point = .idle ∧ s.RunsTo op t

/-- The state without the three fields that no rule reads: `S.debug` (R28, R227), `S.rawFlag` (R27) and `S.regime` (R24). -/
def State.unseen (s : State) : State := { s with debug := false, rawFlag := false, regime := .unconfigured }

/-! ### What the delay parameters reach -/

/-- The event without the arguments that those parameters give it. -/
def Event.undelayed : Event → Event
  | .config _ _ r => .config 0 0 r
  | .sleep _ => .sleep 0
  | .linkOpen r => .linkOpen r
  | .tx bytes r => .tx bytes r
  | .rx maxLen r => .rx maxLen r
  | .close => .close
  | .done op st a b result => .done op st a b result

/-- The state with such a trace. -/
def State.undelayed (s : State) : State := { s with trace := s.trace.map Event.undelayed }

/-! ### Answers of the link -/

/-- A one-byte read that is not the terminator: another byte, or none (R142). -/
def ReadResult.Misses (r : ReadResult) : Prop := ∃ bytes, r.within 1 = .ok bytes ∧ bytes ≠ [0x00]

/-- A read that returned no byte. -/
def ReadResult.Silent (r : ReadResult) : Prop := r = .ok []

/-- A read that returned at least one byte. -/
def ReadResult.Speaks (r : ReadResult) : Prop := ∃ b bytes, r = .ok (b :: bytes)

/-- The events of failed probe attempts: each one is a send and a one-byte read that returned nothing (R134). -/
def probeEvents (frame : List Byte) (n : Nat) : List Event :=
  (List.replicate n [Event.tx frame (.ok 9), Event.rx 1 (.ok [])]).flatten

/-- The events of one-byte reads (R40). -/
def readEvents (rs : List ReadResult) : List Event := rs.map fun r => Event.rx 1 (r.within 1)

/-- The error codes that each operation can raise, by request code (R214). -/
def codesOf (op : Byte) : List ErrorCode :=
  if op = 0x01 then
    [.linkOpen, .linkLock, .linkAttr, .writeIo, .writeCount, .readIo, .syncExhausted, .wrongEncLen, .outOfSync, .frameDiscarded,
      .decodeFailed, .wrongDecLen, .crcMismatch, .notInSync]
  else if op = 0x02 then
    [.sequence, .writeIo, .writeCount, .readIo, .wrongEncLen, .outOfSync, .frameDiscarded, .decodeFailed, .wrongDecLen, .crcMismatch,
      .rawModeFailed]
  else if op = 0x03 then
    [.sequence, .badThresholds, .writeIo, .writeCount, .readIo, .wrongEncLen, .outOfSync, .frameDiscarded, .decodeFailed, .wrongDecLen,
      .crcMismatch, .triggerModeFailed]
  else if op = 0x04 then
    [.sequence, .readIo, .wrongEncLen, .outOfSync, .frameDiscarded, .decodeFailed, .wrongDecLen, .crcMismatch, .notSensorReading]
  else if op = 0x05 ∨ op = 0x06 ∨ op = 0x07 then []
  else [.illegalOp]

end Sys2Proof.Machine
end

