-- ==== Sys2Proof/Certificates/Slice0/Obligations.lean ====
section
/-! DEFINITION. The statements for the provers. The rule each one formalises is named in its docstring; OBLIGATIONS.json has the rest. -/

open Sys2Proof Sys2Proof.Machine

/-! ### Encodings -/

/-- Decoding an encoded well-formed instruction gives it back, in its own format (R71, R72, R80), whatever the parameters are that tell the
kinds and the opcodes apart (R77). -/
def Obligations.DecodeInvertsEncode : Prop :=
  (∀ i : Instr, i.wellFormed = true → decode i.format (encode i) = .ok i) ∧
  (∀ (P : Params) (i : Instr), P.Unambiguous → i.wellFormed P = true → decode i.format (encode i P) P = .ok i)

/-- A word that decodes is the encoding of what it decodes to, so no bit is dropped and each word has one meaning, at every parameter. -/
def Obligations.EncodeInvertsDecode : Prop :=
  ∀ (P : Params) (f : Format) (bytes : List Byte) (i : Instr), decode f bytes P = .ok i → i.format = f ∧ encode i P = bytes

/-- A decoded word has, under its row's mask, its row's fixed bits (the rows of spec/opcode_table.json). -/
def Obligations.DecodedWordMatchesTableRow : Prop :=
  ∀ (f : Format) (bytes : List Byte) (i : Instr), decode f bytes = .ok i → beNat bytes &&& i.row.2.2 = i.row.2.1

/-- Every host request code has exactly the row R80's table gives it, and every response tag a row (R80, R83, R84). -/
def Obligations.EveryRequestAndResponseDecodes : Prop :=
  (∀ (op : Byte) (a b : Word16), ∃ i, decode .hreq [op, hi a, lo a, hi b, lo b] = .ok i ∧ i.requestCode = some op) ∧
  (∀ (kind : Byte) (value crc : Word16),
    ∃ i, decode .rsp [kind, hi value, lo value, hi crc, lo crc] = .ok i ∧ i.response = some (kind, value))

/-- Words written out from R71, R72 and R80, one or more of each format. That the word with opcode 0x40, which the engine never produces
(R82), is rejected by name is the model's choice (log entry 17). -/
def Obligations.SpecWordsDecode : Prop :=
  decode .cmd [0x30, 0x00, 0x00, 0x00, 0x00, 0x1B, 0xA6] = .ok (.cmdSync 0x1BA6) ∧
  decode .cmd [0x20, 0x00, 0x46, 0x00, 0x5A, 0x82, 0x96] = .ok (.cmdTrigger 70 90 0x8296) ∧
  decode .cmd [0x40, 0x00, 0x00, 0x00, 0x00, 0x00, 0x00] = .error (.unknownOpcode 0x40) ∧
  decode .rsp [0x00, 0xFF, 0xFF, 0x36, 0x74] = .ok (.rspSensorValue 0xFFFF 0x3674) ∧
  decode .rsp [0x07, 0x00, 0x00, 0x4A, 0xC9] = .ok (.rspUndefinedKind 0x07 0x0000 0x4AC9) ∧
  decode .hreq [0x03, 0x80, 0x00, 0x00, 0x01] = .ok (.setTriggerMode 0x8000 0x0001) ∧
  decode .hreq [0xFF, 0x12, 0x34, 0x56, 0x78] = .ok (.reserved80 0x7F 0x1234 0x5678)

/-- R188: a 16-bit value's bytes are its high and low eight bits, two bytes give the value back, both ways exactly; the signed reading is two's
complement and the threshold comparison is signed. -/
def Obligations.ByteConversionsExact : Prop :=
  (∀ v : Word16, (hi v).toNat = v.toNat / 256 ∧ (lo v).toNat = v.toNat % 256 ∧ be16 (hi v) (lo v) = v) ∧
  (∀ h l : Byte, hi (be16 h l) = h ∧ lo (be16 h l) = l ∧ (be16 h l).toNat = h.toNat * 256 + l.toNat) ∧
  (∀ v : Word16, sext16 v = if v.toNat < 0x8000 then (v.toNat : Int) else (v.toNat : Int) - 0x10000) ∧
  (∀ low high : Word16, signedGt low high = true ↔ sext16 high < sext16 low)

/-! ### The CRC generator -/

/-- R103: the shift and XOR of one bit, the affine law for inputs of one length, and that any single flipped input bit changes the
result. R105: at every parameter, `CRC_BYTESWAP` exchanges the result's two bytes and does nothing else. -/
def Obligations.CrcAffineAndBitSensitive : Prop :=
  (∀ (reg : Word16) (bit : Bool), crcShift reg bit = (reg >>> 1) ^^^ (if reg.getLsbD 0 = bit then 0x0000 else 0x8408)) ∧
  (∀ x y : List Byte, x.length = y.length →
    crc16 (List.zipWith (· ^^^ ·) x y) x.length =
      crc16 x x.length ^^^ crc16 y x.length ^^^ crc16 (List.replicate x.length 0x00) x.length) ∧
  (∀ (x : List Byte) (i : Nat) (k : Fin 8), i < x.length →
    crc16 (x.set i (x.getD i 0x00 ^^^ BitVec.twoPow 8 k)) x.length ≠ crc16 x x.length) ∧
  (∀ (P : Params) (x : List Byte) (n : Nat) (c : Word16), c = crc16 x n { P with crcByteswap := false } → n ≠ 0 →
    crc16 x n { P with crcByteswap := true } = be16 (lo c) (hi c))

/-- R256: a request of length 0 gives 0x0000 whatever the data channel holds, and reads no byte of it. What the buffers and `S.crcReg` hold when
the operation has ended is the model's choice (log entry 18). -/
def Obligations.ZeroLengthCrcReadsNoData : Prop :=
  ∀ (b : Word16) (s : State) (data : List Byte),
    exec (.crc16 0x0000 b) { s with reqData := data } =
      .next (({ s with crcReg := 0xFFFF, result := 0x0000 } : State).ended 0x05 { cls := .none, code := 0x00 } 0 0)

/-- R106: CRC16, request code 0x05, completes in every state. Its result is the CRC of the first `length` bytes of the data channel, and nothing
else is written. What the buffers and `S.crcReg` hold when the operation has ended is the model's choice (log entry 18). -/
def Obligations.Crc16Completes : Prop :=
  ∀ (length b : Word16) (s : State),
    decode .hreq [0x05, hi length, lo length, hi b, lo b] = .ok (.crc16 length b) ∧
    (length.toNat ≤ s.reqData.length →
      exec (.crc16 length b) s =
        .next (({ s with
          crcReg := crcRun 0xFFFF (s.reqData.take length.toNat)
          result := crc16 s.reqData length.toNat } : State).ended 0x05 { cls := .none, code := 0x00 } 0 0))

/-- The model's choice (log entry 7): where the state lists fewer bytes than the request claims, CRC16 completes too, and the missing bytes may
be any. What the buffers and `S.crcReg` hold when the operation has ended is the model's choice (log entry 18). -/
def Obligations.Crc16RunsOnShortData : Prop :=
  ∀ (length b : Word16) (s : State), ∃ (more : List Byte) (drawn : Nat),
    exec (.crc16 length b) s =
      .next (({ s with
        crcReg := crcRun 0xFFFF ((s.reqData ++ more).take length.toNat)
        result := crc16 (s.reqData ++ more) length.toNat
        oracle := { s.oracle with drawn := drawn } } : State).ended 0x05 { cls := .none, code := 0x00 } 0 0) ∧
      length.toNat ≤ (s.reqData ++ more).length

/-! ### The command rows -/

/-- R180: the command encoder builds opcode, big-endian payload and big-endian CRC of the five bytes, for every opcode and payload and at
every parameter, and has no side effect but on the CRC register. The model's choice (log entry 8): executing a command row, which the host
cannot ask for, builds its packet (R181 to R183) into `S.txPkt`, and does so for a wrong CRC field too. -/
def Obligations.CommandRowsBuildPackets : Prop :=
  ∀ (opc : Byte) (low high crc : Word16) (s : State),
    buildCmd opc low high s = s.built opc low high ∧
    (∀ (P : Params) (c : Word16), c = crc16 [opc, hi low, lo low, hi high, lo high] 5 P →
      (buildCmd opc low high s P).txPkt = [opc, hi low, lo low, hi high, lo high, hi c, lo c]) ∧
    exec (.cmdSync crc) s = .next (s.built 0x30 0x0000 0x0000) ∧
    exec (.cmdRaw crc) s = .next (s.built 0x10 0x0000 0x0000) ∧
    exec (.cmdTrigger low high crc) s = .next (s.built 0x20 low high)

/-- A well-formed command's own word is the packet the encoder builds for it, CRC included (R71, R74), and the packets are the bytes the
spec computes (R181 to R183). That executing a command row leaves that packet in `S.txPkt` is the model's choice (log entry 8). -/
def Obligations.CommandPacketIsItsWord : Prop :=
  (∀ (i : Instr) (s : State), i.format = .cmd → i.wellFormed = true →
    ∃ t, exec i s = .next t ∧ t.txPkt = encode i ∧ t.txPkt.length = 7) ∧
  cmdPacket 0x30 0 0 = [0x30, 0x00, 0x00, 0x00, 0x00, 0x1B, 0xA6] ∧
  cmdPacket 0x10 0 0 = [0x10, 0x00, 0x00, 0x00, 0x00, 0x7B, 0x37] ∧
  cmdPacket 0x20 70 90 = [0x20, 0x00, 0x46, 0x00, 0x5A, 0x82, 0x96] ∧
  cmdPacket 0x20 0x8000 0x7FFF = [0x20, 0x80, 0x00, 0x7F, 0xFF, 0xFE, 0xFC]

/-! ### The response rows -/

/-- R140, R185 to R187: where its operation awaits it, each expected response ends the operation successfully, with the operation's own state
writes and nothing else, whatever the tags of `KIND_TAG` are (R77). The model's choices: a response row is executed at the point that awaits it
(log entries 4 and 5), and its CRC field is not checked again there, so that a wrong one, which R167 never lets through, is executed too (log
entry 9). What the buffers and `S.crcReg` hold when the operation has ended is the model's choice (log entry 18). -/
def Obligations.AwaitedResponseEndsOperation : Prop :=
  ∀ (P : Params) (value crc : Word16) (s t : State),
    (s.point = .awaiting .echo → t = ({ s with sync := .synced } : State).ended 0x01 { cls := .none, code := 0x00 } 0 0 →
      exec (.rspSyncOk value crc) s = .next t ∧ execRspSyncOk value s P = .next t) ∧
    (s.point = .awaiting .rawMode →
      t = ({ s with rawFlag := true, mode := .rawConfigured } : State).ended 0x02 { cls := .none, code := 0x00 } 0 0 →
      exec (.rspRawAck value crc) s = .next t ∧ execRspRawAck value s P = .next t) ∧
    (s.point = .awaiting .triggerMode → t = ({ s with mode := .triggerConfigured } : State).ended 0x03 { cls := .none, code := 0x00 } 0 0 →
      exec (.rspTriggerAck value crc) s = .next t ∧ execRspTriggerAck value s P = .next t) ∧
    (s.point = .awaiting .reading → t = ({ s with result := value } : State).ended 0x04 { cls := .none, code := 0x00 } 0 0 →
      exec (.rspSensorValue value crc) s = .next t ∧ execRspSensorValue value s P = .next t)

/-- R83: a response of any other kind, named by the table or not, ends the awaiting operation with that operation's own fatal error, the received
kind in `diagA`. RSP_UNKNOWN_COMMAND, RSP_CRC_MISMATCH, RSP_WRONG_SIZE and RSP_UNDEFINED_KIND do nothing else anywhere. The model's choice (log
entry 9): a response row's CRC field is not checked again where it is executed, so the statement covers a wrong one too, for which the receive
path gives CRC_MISMATCH first (R169, R215). What the buffers and `S.crcReg` hold when the operation has ended is the model's choice (log entry
18). -/
def Obligations.UnexpectedKindIsFatal : Prop :=
  ∀ (i : Instr) (kind : Byte) (value : Word16) (s : State), i.response = some (kind, value) →
    (s.point = .awaiting .echo → kind ≠ 0x01 →
      exec i s = .next (s.desync.ended 0x01 { cls := .protocolFatal, code := 0x11 } (kind.setWidth 16) 0)) ∧
    (s.point = .awaiting .rawMode → kind ≠ 0x02 →
      exec i s = .next (s.desync.ended 0x02 { cls := .protocolFatal, code := 0x17 } (kind.setWidth 16) 0)) ∧
    (s.point = .awaiting .triggerMode → kind ≠ 0x03 →
      exec i s = .next (s.desync.ended 0x03 { cls := .protocolFatal, code := 0x18 } (kind.setWidth 16) 0)) ∧
    (s.point = .awaiting .reading → kind ≠ 0x00 →
      exec i s = .next (s.desync.ended 0x04 { cls := .protocolFatal, code := 0x19 } (kind.setWidth 16) 0))

/-- The model's choice (log entry 5): a response row executed where no operation awaits a response changes nothing. -/
def Obligations.UnawaitedResponseHasNoEffect : Prop :=
  ∀ (i : Instr) (kind : Byte) (value : Word16) (s : State), i.response = some (kind, value) →
    (∀ x, s.point ≠ .awaiting x) → exec i s = .next s

/-! ### Link-free requests -/

/-- R84, R202: every reserved request code ends with the usage error ILLEGAL_OP, the code in `diagA`, and changes nothing else. -/
def Obligations.ReservedRequestIsUsageError : Prop :=
  ∀ (i : Instr) (op : Byte) (s : State), i.requestCode = some op → (op = 0x00 ∨ 0x08 ≤ op) →
    exec i s = .next (s.ended op { cls := .usage, code := 0x32 } (op.setWidth 16) 0)

/-- R200: SET_DEBUG stores bit 0 of `b` in the debug flag and changes nothing else. What the buffers and `S.crcReg` hold when the operation has
ended is the model's choice (log entry 18). -/
def Obligations.SetDebugStoresBitZero : Prop :=
  ∀ (a b : Word16) (s : State),
    exec (.setDebug a b) s = .next (({ s with debug := decide (b.toNat % 2 = 1) } : State).ended 0x06 { cls := .none, code := 0x00 } 0 0)

/-- R201: CLOSE records a close exactly when the link is open, and leaves the four session fields closed and the flags kept. What the buffers and
`S.crcReg` hold when the operation has ended is the model's choice (log entry 18). -/
def Obligations.CloseEndsSession : Prop :=
  ∀ (a b : Word16) (s : State),
    exec (.close a b) s = .next (({ s with
      link := .closed, regime := .unconfigured, sync := .unsynced, mode := .idle
      trace := s.trace ++ (if s.link = .opened then [.close] else []) } : State).ended 0x07 { cls := .none, code := 0x00 } 0 0)

/-! ### Mode setting and reading -/

/-- R185: SET_RAW_MODE on a synchronized engine, with the command written whole and a raw-mode-ack read, completes. What the buffers and
`S.crcReg` hold when the operation has ended is the model's choice (log entry 18). -/
def Obligations.SetRawModeSucceeds : Prop :=
  ∀ (a b value : Word16) (f : List Byte) (s : State) (o1 o2 : Oracle), s.sync = .synced →
    s.oracle.takeWrite 9 = (.ok 9, o1) → o1.takeRead 7 = (.ok f, o2) → FrameOf f 0x02 value →
    exec (.setRawMode a b) s = .next (({ (s.sending 0x10 0 0).holding f 0x02 value with
      rawFlag := true, mode := .rawConfigured, oracle := o2
      trace := s.trace ++ [.tx (Config.codec.enc [0x10, 0x00, 0x00, 0x00, 0x00, 0x7B, 0x37]) (.ok 9), .rx 7 (.ok f)] } :
        State).ended 0x02 { cls := .none, code := 0x00 } 0 0)

/-- R186: SET_TRIGGER_MODE on a synchronized engine with `low ≤ high` (signed), with the command written whole and a trigger-mode-ack read,
completes. What the buffers and `S.crcReg` hold when the operation has ended is the model's choice (log entry 18). -/
def Obligations.SetTriggerModeSucceeds : Prop :=
  ∀ (low high value : Word16) (f : List Byte) (s : State) (o1 o2 : Oracle), s.sync = .synced → low.toInt ≤ high.toInt →
    s.oracle.takeWrite 9 = (.ok 9, o1) → o1.takeRead 7 = (.ok f, o2) → FrameOf f 0x03 value →
    exec (.setTriggerMode low high) s = .next (({ (s.sending 0x20 low high).holding f 0x03 value with
      mode := .triggerConfigured, oracle := o2
      trace := s.trace ++ [.tx (Config.codec.enc (cmdPacket 0x20 low high)) (.ok 9), .rx 7 (.ok f)] } :
        State).ended 0x03 { cls := .none, code := 0x00 } 0 0)

/-- R187: READ_SENSOR_VALUE on a synchronized engine with a mode, with a sensor value read, completes with that value; it sends nothing. What the
buffers and `S.crcReg` hold when the operation has ended is the model's choice (log entry 18). -/
def Obligations.ReadSensorValueSucceeds : Prop :=
  ∀ (a b value : Word16) (f : List Byte) (s : State) (o : Oracle), s.sync = .synced → s.mode ≠ .idle →
    s.oracle.takeRead 7 = (.ok f, o) → FrameOf f 0x00 value →
    exec (.readSensorValue a b) s = .next (({ s.holding f 0x00 value with
      result := value, oracle := o, trace := s.trace ++ [.rx 7 (.ok f)] } : State).ended 0x04 { cls := .none, code := 0x00 } 0 0)

/-- R185 to R187, R213, R242: out of sequence, the three operations end with SEQUENCE and the encodings of `S.sync` (R25) and `S.mode`
(R26), touch no port and change nothing else. -/
def Obligations.SequenceErrors : Prop :=
  ∀ (a b : Word16) (s : State),
    (s.sync ≠ .synced →
      exec (.setRawMode a b) s = .next (s.ended 0x02 { cls := .usage, code := 0x31 } (s.sync.num.setWidth 16) (s.mode.num.setWidth 16)) ∧
      exec (.setTriggerMode a b) s =
        .next (s.ended 0x03 { cls := .usage, code := 0x31 } (s.sync.num.setWidth 16) (s.mode.num.setWidth 16))) ∧
    (s.sync ≠ .synced ∨ s.mode = .idle →
      exec (.readSensorValue a b) s =
        .next (s.ended 0x04 { cls := .usage, code := 0x31 } (s.sync.num.setWidth 16) (s.mode.num.setWidth 16))) ∧
    SyncState.unsynced.num = 0 ∧ SyncState.seekingHeader.num = 1 ∧ SyncState.drainingGarbage.num = 2 ∧ SyncState.awaitingEcho.num = 3 ∧
    SyncState.synced.num = 4 ∧ Mode.idle.num = 0 ∧ Mode.rawConfigured.num = 1 ∧ Mode.triggerConfigured.num = 2

/-- R186: thresholds out of signed order are refused before any link traffic, on a synchronized engine. -/
def Obligations.ThresholdsOutOfOrderRefused : Prop :=
  ∀ (low high : Word16) (s : State), s.sync = .synced → high.toInt < low.toInt →
    exec (.setTriggerMode low high) s = .next (s.ended 0x03 { cls := .usage, code := 0x30 } low high)

/-- R160, R161: SendCommand writes the nine bytes of the encoded packet in one call. A failed write and any count but nine raise, and the write
is not repeated; on success nothing but the frame buffer and the trace has changed. -/
def Obligations.SendCommandWritesOnce : Prop :=
  ∀ (pkt : List Byte) (s t : State) (r : WriteResult) (o : Oracle), pkt.length = 7 → s.oracle.takeWrite 9 = (r, o) →
    t = { s with
      txFrame := Config.codec.enc pkt, written := { s.written with txFrame := true }, oracle := o
      trace := s.trace ++ [.tx (Config.codec.enc pkt) r] } →
    (Config.codec.enc pkt).length = 9 ∧
    (r = .err → sendCommand Config.codec pkt s = .raise { code := .writeIo, a := 0, b := 9 } t) ∧
    (r = .ok 9 → sendCommand Config.codec pkt s = .ok () t) ∧
    (∀ n, n ≠ 9 → r = .ok n → sendCommand Config.codec pkt s = .raise { code := .writeCount, a := BitVec.ofNat 16 n, b := 9 } t)

/-- SET_RAW_MODE and SET_TRIGGER_MODE end fatally where the write of their nine bytes fails or reports another count (R160, R161, R216). What the
buffers and `S.crcReg` hold when the operation has ended is the model's choice (log entry 18). -/
def Obligations.PartialWriteIsFatal : Prop :=
  ∀ (a b low high : Word16) (s : State) (o : Oracle), s.sync = .synced → low.toInt ≤ high.toInt →
    (s.oracle.takeWrite 9 = (.err, o) →
      exec (.setRawMode a b) s = .next (({ (s.sending 0x10 0 0).desync with
        crcReg := 0x84C8, oracle := o, trace := s.trace ++ [.tx (Config.codec.enc (cmdPacket 0x10 0 0)) .err] } :
          State).ended 0x02 { cls := .linkFatal, code := 0x06 } 0 9) ∧
      exec (.setTriggerMode low high) s = .next (({ (s.sending 0x20 low high).desync with
        crcReg := crcRun 0xFFFF [0x20, hi low, lo low, hi high, lo high], oracle := o
        trace := s.trace ++ [.tx (Config.codec.enc (cmdPacket 0x20 low high)) .err] } :
          State).ended 0x03 { cls := .linkFatal, code := 0x06 } 0 9)) ∧
    (∀ n, n ≠ 9 → s.oracle.takeWrite 9 = (.ok n, o) →
      exec (.setRawMode a b) s = .next (({ (s.sending 0x10 0 0).desync with
        crcReg := 0x84C8, oracle := o, trace := s.trace ++ [.tx (Config.codec.enc (cmdPacket 0x10 0 0)) (.ok n)] } :
          State).ended 0x02 { cls := .linkFatal, code := 0x04 } (BitVec.ofNat 16 n) 9) ∧
      exec (.setTriggerMode low high) s = .next (({ (s.sending 0x20 low high).desync with
        crcReg := crcRun 0xFFFF [0x20, hi low, lo low, hi high, lo high], oracle := o
        trace := s.trace ++ [.tx (Config.codec.enc (cmdPacket 0x20 low high)) (.ok n)] } :
          State).ended 0x03 { cls := .linkFatal, code := 0x04 } (BitVec.ofNat 16 n) 9))

/-! ### Receiving -/

/-- R162, R163, R166, R167: ReceivePacket of a response makes one read of up to seven bytes and reports the first defect, in order: a failed
read, a wrong length, a last byte that is not 0x00 (which runs Resync), a failed or empty decode, a wrong decoded length, a wrong CRC; else it
returns the decoded packet. -/
def Obligations.ReceivePacketReportsFirstDefect : Prop :=
  ∀ (C : Codec) (s : State) (r : ReadResult) (o : Oracle) (t : State), s.oracle.takeRead 7 = (r, o) →
    (∀ bytes, t = { s with
      oracle := o, trace := s.trace ++ [.rx 7 r], rxFrame := bytes, written := { s.written with rxFrame := true } } →
      r = .ok bytes →
      (bytes.length ≠ 7 → receivePacket C 5 s = .raise { code := .wrongEncLen, a := BitVec.ofNat 16 bytes.length, b := 7 } t) ∧
      (bytes.length = 7 → bytes[6]? ≠ some 0x00 → ∀ u : State,
        (resync t = .ok false u → receivePacket C 5 s = .raise { code := .outOfSync, a := BitVec.ofNat 16 (min u.resyncCount 0xFFFF), b := 0 } u) ∧
        (resync t = .ok true u →
          receivePacket C 5 s = .raise { code := .frameDiscarded, a := BitVec.ofNat 16 (min u.resyncCount 0xFFFF), b := 0 } u) ∧
        (∀ e, resync t = .raise e u → receivePacket C 5 s = .raise e u)) ∧
      (bytes.length = 7 → bytes[6]? = some 0x00 →
        (C.dec bytes = none ∨ C.dec bytes = some [] → receivePacket C 5 s = .raise { code := .decodeFailed, a := 0, b := 0 } t) ∧
        (∀ d, C.dec bytes = some d → d ≠ [] → d.length ≠ 5 →
          receivePacket C 5 s = .raise { code := .wrongDecLen, a := BitVec.ofNat 16 (min d.length 0xFFFF), b := 5 } t) ∧
        (∀ k v1 v0 c1 c0 : Byte, C.dec bytes = some [k, v1, v0, c1, c0] →
          receivePacket C 5 s =
            if be16 c1 c0 = crc16 [k, v1, v0] 3 then
              .ok [k, v1, v0, c1, c0] { t with
                rxPkt := [k, v1, v0, c1, c0], crcReg := crcRun 0xFFFF [k, v1, v0]
                written := { t.written with rxPkt := true, crcReg := true } }
            else
              .raise { code := .crcMismatch, a := be16 c1 c0, b := crc16 [k, v1, v0] 3 } { t with
                rxPkt := [k, v1, v0, c1, c0], crcReg := crcRun 0xFFFF [k, v1, v0]
                written := { t.written with rxPkt := true, crcReg := true } }))) ∧
    (r = .err → receivePacket C 5 s =
      .raise { code := .readIo, a := 0, b := 7 } { s with oracle := o, trace := s.trace ++ [.rx 7 .err] })

/-- R143: a scan that misses 100 times fails after exactly 100 reads, and one that finds 0x00 at read k ≤ 100 succeeds after k, whether or
not the missing reads return a byte. R142: a read that fails ends it with READ_IO, uncounted. -/
def Obligations.ResyncCountsReadAttempts : Prop :=
  ∀ (s : State) (rs rest : List ReadResult), (∀ r ∈ rs, r.Misses) →
    (rs.length = 100 → s.oracle.reads = rs ++ rest →
      resync s = .ok false { s with
        resyncCount := 100, oracle := { s.oracle with reads := rest }, trace := s.trace ++ readEvents rs }) ∧
    (∀ bytes, rs.length < 100 → s.oracle.reads = rs ++ .ok (0x00 :: bytes) :: rest →
      resync s = .ok true { s with
        resyncCount := rs.length + 1, oracle := { s.oracle with reads := rest }
        trace := s.trace ++ readEvents rs ++ [.rx 1 (.ok [0x00])] }) ∧
    (rs.length < 100 → s.oracle.reads = rs ++ .err :: rest →
      resync s = .raise { code := .readIo, a := 0, b := 1 } { s with
        resyncCount := rs.length, oracle := { s.oracle with reads := rest }
        trace := s.trace ++ readEvents rs ++ [.rx 1 .err] })

/-- R165, R144: a reading whose frame does not end in 0x00 is lost. Where the scan finds 0x00 at read k the operation ends with the soft
FRAME_DISCARDED and k, still synchronized and in its mode; where 100 reads miss, with the fatal OUT_OF_SYNC and 100; where a read of the scan
fails, with the fatal READ_IO, 0 and 1 (R142). What the buffers and `S.crcReg` hold when the operation has ended is the model's choice (log entry
18). -/
def Obligations.MisalignedFrameIsLost : Prop :=
  ∀ (a b : Word16) (s : State) (f : List Byte) (rs rest : List ReadResult), s.sync = .synced → s.mode ≠ .idle →
    f.length = 7 → f[6]? ≠ some 0x00 → (∀ r ∈ rs, r.Misses) →
    (∀ bytes, rs.length < 100 → s.oracle.reads = .ok f :: (rs ++ .ok (0x00 :: bytes) :: rest) →
      exec (.readSensorValue a b) s = .next (({ s with
        rxFrame := f, resyncCount := rs.length + 1, oracle := { s.oracle with reads := rest }
        trace := s.trace ++ [.rx 7 (.ok f)] ++ readEvents rs ++ [.rx 1 (.ok [0x00])] } :
          State).ended 0x04 { cls := .soft, code := 0x20 } (BitVec.ofNat 16 (rs.length + 1)) 0)) ∧
    (rs.length = 100 → s.oracle.reads = .ok f :: (rs ++ rest) →
      exec (.readSensorValue a b) s = .next (({ s.desync with
        rxFrame := f, resyncCount := 100, oracle := { s.oracle with reads := rest }
        trace := s.trace ++ [.rx 7 (.ok f)] ++ readEvents rs } : State).ended 0x04 { cls := .protocolFatal, code := 0x13 } 100 0)) ∧
    (rs.length < 100 → s.oracle.reads = .ok f :: (rs ++ .err :: rest) →
      exec (.readSensorValue a b) s = .next (({ s.desync with
        rxFrame := f, resyncCount := rs.length, oracle := { s.oracle with reads := rest }
        trace := s.trace ++ [.rx 7 (.ok f)] ++ readEvents rs ++ [.rx 1 .err] } :
          State).ended 0x04 { cls := .linkFatal, code := 0x05 } 0 1))

/-! ### Bring-up -/

/-- R131, R132, R133, R136, R139 to R141: where a call of the link fails, OPEN_AND_SYNC ends with that call's error, having closed an open
session first: `LinkOpen`, the drain-regime configure, the probe's write or read at attempt k + 1, the drain's read, the blocking-regime
configure, which leaves the link open in the drain regime, or the echo (R140), whose write, receive or kind fails with the link open in the
blocking regime (R141). What the buffers and `S.crcReg` hold when the operation has ended is the model's choice (log entry 18). -/
def Obligations.FailedOpenEndsBringUp : Prop :=
  ∀ (a b : Word16) (s : State) (o1 o2 : Oracle) (session : List Event),
    session = (if s.link = .opened then [.close] else []) →
    (∀ e, s.oracle.takeOpen = (.err e, o1) →
      exec (.openAndSync a b) s = .next (({ s with
        link := .closed, regime := .unconfigured, sync := .unsynced, mode := .idle, oracle := o1
        trace := s.trace ++ session ++ [.linkOpen (.err e)] } : State).ended 0x01
          { cls := .linkFatal, code := match e with | .linkOpen => 0x01 | .linkLock => 0x02 | .linkAttr => 0x03 } 0 0)) ∧
    (s.oracle.takeOpen = (.ok, o1) → o1.takeConfigure = (.err, o2) →
      exec (.openAndSync a b) s = .next (({ s with
        link := .opened, regime := .unconfigured, sync := .unsynced, mode := .idle, oracle := o2
        trace := s.trace ++ session ++ [.linkOpen .ok, .config 0 0 .err] } : State).ended 0x01
          { cls := .linkFatal, code := 0x03 } 0 0)) ∧
    (∀ (k : Nat) (opens : List OpenResult) (configures : List ConfigResult) (writes : List WriteResult) (reads : List ReadResult)
      (reached : Oracle → List Event → State),
      k < 100 → s.oracle.opens = .ok :: opens → s.oracle.configures = .ok :: configures →
      s.oracle.writes = List.replicate (k + 1) (.ok 9) ++ writes →
      (∀ o events, reached o events = { s.sending 0x30 0 0 with
        link := .opened, regime := .drain, sync := .unsynced, mode := .idle, syncCount := k + 1, crcReg := 0xE459, oracle := o
        trace := s.trace ++ session ++ [.linkOpen .ok, .config 0 0 .ok] ++ probeEvents (Config.codec.enc (cmdPacket 0x30 0 0)) k ++
          [.tx (Config.codec.enc (cmdPacket 0x30 0 0)) (.ok 9)] ++ events }) →
      (s.oracle.reads = List.replicate k (.ok []) ++ .err :: reads →
        exec (.openAndSync a b) s = .next
          ((reached { opens := opens, configures := configures, reads := reads, writes := writes, drawn := s.oracle.drawn }
            [.rx 1 .err]).ended 0x01 { cls := .linkFatal, code := 0x05 } 0 1)) ∧
      (∀ (byte : Byte) (bytes : List Byte) (garbage : List ReadResult), (∀ r ∈ garbage, r.Speaks) →
        (s.oracle.reads = List.replicate k (.ok []) ++ .ok (byte :: bytes) :: (garbage ++ .err :: reads) →
          exec (.openAndSync a b) s = .next
            ((reached { opens := opens, configures := configures, reads := reads, writes := writes, drawn := s.oracle.drawn }
              ([.rx 1 (.ok [byte])] ++ readEvents garbage ++ [.rx 1 .err])).ended 0x01 { cls := .linkFatal, code := 0x05 } 0 1)) ∧
        (∀ others, configures = .err :: others →
          s.oracle.reads = List.replicate k (.ok []) ++ .ok (byte :: bytes) :: (garbage ++ .ok [] :: reads) →
          exec (.openAndSync a b) s = .next
            ((reached { opens := opens, configures := others, reads := reads, writes := writes, drawn := s.oracle.drawn }
              ([.rx 1 (.ok [byte])] ++ readEvents garbage ++ [.rx 1 (.ok []), .sleep 20, .config 7 10 .err])).ended 0x01
                { cls := .linkFatal, code := 0x03 } 0 0)) ∧
        (∀ (others : List ConfigResult) (sent : List WriteResult) (echoing : List Event → State), configures = .ok :: others →
          s.oracle.reads = List.replicate k (.ok []) ++ .ok (byte :: bytes) :: (garbage ++ .ok [] :: reads) →
          (∀ events, echoing events = { reached
            { opens := opens, configures := others, reads := reads, writes := sent, drawn := s.oracle.drawn }
            ([.rx 1 (.ok [byte])] ++ readEvents garbage ++ [.rx 1 (.ok []), .sleep 20, .config 7 10 .ok] ++ events) with regime := .blocking }) →
          (writes = .err :: sent →
            exec (.openAndSync a b) s =
              .next ((echoing [.tx (Config.codec.enc (cmdPacket 0x30 0 0)) .err]).ended 0x01 { cls := .linkFatal, code := 0x06 } 0 9)) ∧
          (∀ n, n < 9 → writes = .ok n :: sent →
            exec (.openAndSync a b) s = .next ((echoing [.tx (Config.codec.enc (cmdPacket 0x30 0 0)) (.ok n)]).ended 0x01
              { cls := .linkFatal, code := 0x04 } (BitVec.ofNat 16 n) 9)) ∧
          (writes = .ok 9 :: sent →
            (∀ (e : Raise) (u : State),
              receivePacket Config.codec 5 { echoing [.tx (Config.codec.enc (cmdPacket 0x30 0 0)) (.ok 9)] with
                sync := .awaitingEcho, busy := true, point := .awaiting .echo
                written := { s.written with crcReg := true, txPkt := true, txFrame := true } } = .raise e u →
              u.link = .opened ∧ u.regime = .blocking ∧ u.syncCount = k + 1 ∧
                exec (.openAndSync a b) s = .next (({ u with sync := .unsynced, mode := .idle } : State).ended 0x01
                  { cls := e.code.cls, code := e.code.num } e.a e.b)) ∧
            (∀ (f : List Byte) (kind : Byte) (value : Word16) (rest : List ReadResult), reads = .ok f :: rest → FrameOf f kind value →
              kind ≠ 0x01 → exec (.openAndSync a b) s =
                .next (({ (echoing [.tx (Config.codec.enc (cmdPacket 0x30 0 0)) (.ok 9), .rx 7 (.ok f)]).holding f kind value with
                  oracle := { opens := opens, configures := others, reads := rest, writes := sent, drawn := s.oracle.drawn } } :
                    State).ended 0x01 { cls := .protocolFatal, code := 0x11 } (kind.setWidth 16) 0)))))) ∧
    (∀ (k : Nat) (opens : List OpenResult) (configures : List ConfigResult) (writes : List WriteResult) (reads : List ReadResult)
      (stopped : WriteResult → State),
      k < 100 → s.oracle.opens = .ok :: opens → s.oracle.configures = .ok :: configures →
      s.oracle.reads = List.replicate k (.ok []) ++ reads →
      (∀ r, stopped r = { s.sending 0x30 0 0 with
        link := .opened, regime := .drain, sync := .unsynced, mode := .idle, syncCount := k, crcReg := 0xE459
        oracle := { opens := opens, configures := configures, reads := reads, writes := writes, drawn := s.oracle.drawn }
        trace := s.trace ++ session ++ [.linkOpen .ok, .config 0 0 .ok] ++ probeEvents (Config.codec.enc (cmdPacket 0x30 0 0)) k ++
          [.tx (Config.codec.enc (cmdPacket 0x30 0 0)) r] }) →
      (s.oracle.writes = List.replicate k (.ok 9) ++ .err :: writes →
        exec (.openAndSync a b) s = .next ((stopped .err).ended 0x01 { cls := .linkFatal, code := 0x06 } 0 9)) ∧
      (∀ n, n < 9 → s.oracle.writes = List.replicate k (.ok 9) ++ .ok n :: writes →
        exec (.openAndSync a b) s =
          .next ((stopped (.ok n)).ended 0x01 { cls := .linkFatal, code := 0x04 } (BitVec.ofNat 16 n) 9)))

/-- R134: a probe that no read answers makes exactly 100 attempts, 200 events, and raises SYNC_EXHAUSTED with 100; one that attempt
k ≤ 100 answers ends after k attempts with `S.syncCount = k`. R133: an attempt whose read fails ends it with READ_IO, 0 and 1, that attempt
counted; one whose send fails or falls short ends it with WRITE_IO or WRITE_COUNT before it is counted. -/
def Obligations.ProbeCountsAttempts : Prop :=
  ∀ (pkt : List Byte) (s : State) (n : Nat) (writes : List WriteResult) (rest : List ReadResult), pkt.length = 7 →
    s.oracle.writes = List.replicate n (.ok 9) ++ writes →
    (n = 100 → s.oracle.reads = List.replicate n (.ok []) ++ rest →
      probe Config.codec pkt s = .raise { code := .syncExhausted, a := 100, b := 0 } { s with
        syncCount := 100, txFrame := Config.codec.enc pkt, written := { s.written with txFrame := true }
        oracle := { s.oracle with writes := writes, reads := rest }
        trace := s.trace ++ probeEvents (Config.codec.enc pkt) 100 } ∧
      (probeEvents (Config.codec.enc pkt) 100).length = 200) ∧
    (∀ k byte bytes, n = k + 1 → n ≤ 100 → s.oracle.reads = List.replicate k (.ok []) ++ .ok (byte :: bytes) :: rest →
      probe Config.codec pkt s = .ok () { s with
        syncCount := n, txFrame := Config.codec.enc pkt, written := { s.written with txFrame := true }
        oracle := { s.oracle with writes := writes, reads := rest }
        trace := s.trace ++ probeEvents (Config.codec.enc pkt) k ++
          [.tx (Config.codec.enc pkt) (.ok 9), .rx 1 (.ok [byte])] }) ∧
    (∀ k, n = k + 1 → n ≤ 100 → s.oracle.reads = List.replicate k (.ok []) ++ .err :: rest →
      probe Config.codec pkt s = .raise { code := .readIo, a := 0, b := 1 } { s with
        syncCount := n, txFrame := Config.codec.enc pkt, written := { s.written with txFrame := true }
        oracle := { s.oracle with writes := writes, reads := rest }
        trace := s.trace ++ probeEvents (Config.codec.enc pkt) k ++ [.tx (Config.codec.enc pkt) (.ok 9), .rx 1 .err] }) ∧
    (∀ (others : List WriteResult) (t : WriteResult → State), n < 100 → s.oracle.reads = List.replicate n (.ok []) ++ rest →
      (∀ r, t r = { s with
        syncCount := n, txFrame := Config.codec.enc pkt, written := { s.written with txFrame := true }
        oracle := { s.oracle with writes := others, reads := rest }
        trace := s.trace ++ probeEvents (Config.codec.enc pkt) n ++ [.tx (Config.codec.enc pkt) r] }) →
      (writes = .err :: others →
        probe Config.codec pkt s = .raise { code := .writeIo, a := 0, b := 9 } (t .err)) ∧
      (∀ count, count < 9 → writes = .ok count :: others →
        probe Config.codec pkt s = .raise { code := .writeCount, a := BitVec.ofNat 16 count, b := 9 } (t (.ok count))))

/-- R134: bring-up against a silent sensor ends, after 100 sends and 100 reads, with SYNC_EXHAUSTED; the link stays open. R132: an open session is closed first. What the buffers and
`S.crcReg` hold when the operation has ended is the model's choice (log entry 18). -/
def Obligations.SilentSensorExhaustsBringUp : Prop :=
  ∀ (a b : Word16) (s : State) (opens : List OpenResult) (configures : List ConfigResult) (reads : List ReadResult)
    (writes : List WriteResult),
    s.oracle.opens = .ok :: opens → s.oracle.configures = .ok :: configures →
    s.oracle.reads = List.replicate 100 (.ok []) ++ reads → s.oracle.writes = List.replicate 100 (.ok 9) ++ writes →
    exec (.openAndSync a b) s = .next (({ s.sending 0x30 0 0 with
      link := .opened, regime := .drain, sync := .unsynced, mode := .idle, syncCount := 100, crcReg := 0xE459
      oracle := { opens := opens, configures := configures, reads := reads, writes := writes, drawn := s.oracle.drawn }
      trace := s.trace ++ (if s.link = .opened then [.close] else []) ++ [.linkOpen .ok, .config 0 0 .ok] ++
        probeEvents (Config.codec.enc (cmdPacket 0x30 0 0)) 100 } :
        State).ended 0x01 { cls := .protocolFatal, code := 0x10 } 100 0)

/-- R131 to R140: bring-up succeeds. The link opens, the probe is answered at attempt k + 1 ≤ 100, the drain takes any number of reads that
return bytes and ends at one that returns none, and the echo is a sync-ok: the operation completes in one step, synchronized. What the buffers
and `S.crcReg` hold when the operation has ended is the model's choice (log entry 18). -/
def Obligations.OpenAndSyncSucceeds : Prop :=
  ∀ (a b value : Word16) (s : State) (k : Nat) (byte : Byte) (bytes f : List Byte) (garbage reads : List ReadResult)
    (opens : List OpenResult) (configures : List ConfigResult) (writes : List WriteResult),
    k < 100 → (∀ r ∈ garbage, r.Speaks) → FrameOf f 0x01 value →
    s.oracle.opens = .ok :: opens → s.oracle.configures = .ok :: .ok :: configures →
    s.oracle.writes = List.replicate (k + 1) (.ok 9) ++ .ok 9 :: writes →
    s.oracle.reads = List.replicate k (.ok []) ++ .ok (byte :: bytes) :: (garbage ++ .ok [] :: .ok f :: reads) →
    exec (.openAndSync a b) s = .next (({ (s.sending 0x30 0 0).holding f 0x01 value with
      link := .opened, regime := .blocking, sync := .synced, mode := .idle, syncCount := k + 1
      oracle := { opens := opens, configures := configures, reads := reads, writes := writes, drawn := s.oracle.drawn }
      trace := s.trace ++ (if s.link = .opened then [.close] else []) ++ [.linkOpen .ok, .config 0 0 .ok] ++
        probeEvents (Config.codec.enc (cmdPacket 0x30 0 0)) k ++
        [.tx (Config.codec.enc (cmdPacket 0x30 0 0)) (.ok 9), .rx 1 (.ok [byte])] ++ readEvents garbage ++
        [.rx 1 (.ok []), .sleep 20, .config 7 10 .ok, .tx (Config.codec.enc (cmdPacket 0x30 0 0)) (.ok 9), .rx 7 (.ok f)] } :
        State).ended 0x01 { cls := .none, code := 0x00 } 0 0)

/-- R137, R206: the drain has no bound. In every state in the drain whose port is busy, whose packet is built and to which no reset is to
come: while every read returns a byte, the operation goes on to drain with the port busy, and nothing changes but the trace; so after any
number of such answers it still runs. The model's choice (log entry 4): one step takes all the answers known and then rests in the drain. -/
def Obligations.DrainHasNoBound : Prop :=
  ∀ (s : State) (garbage : List ReadResult), garbage ≠ [] → (∀ r ∈ garbage, r.Speaks) → s.point = .draining → s.busy = true →
    s.written.txPkt = true → s.resets = [] → s.oracle.reads = garbage →
    step s = .next { s with oracle := { s.oracle with reads := [] }, trace := s.trace ++ readEvents garbage }

/-- R136 to R141: what a step from the drain is once the drain ends, after any number of reads that return bytes: a read that fails, READ_IO with
0 and 1; else the settle and the blocking-regime configure, LINK_ATTR where it fails; else the echo and, with a sync-ok, success. An echo that
fails, by its write, by any error of ReceivePacket or by its kind, keeps the link and the regime Blocking. That a step may start in the drain is
the model's choice (log entry 4). What the buffers and `S.crcReg` hold when the operation has ended is the model's choice (log entry 18). -/
def Obligations.ResumedDrainEndsBringUp : Prop :=
  ∀ (s : State) (garbage reads : List ReadResult), (∀ r ∈ garbage, r.Speaks) → s.point = .draining → s.written.txPkt = true →
    s.resets = [] →
    (s.oracle.reads = garbage ++ .err :: reads →
      step s = .next (({ s.desync with
        oracle := { s.oracle with reads := reads }, trace := s.trace ++ readEvents garbage ++ [.rx 1 .err] } :
          State).ended 0x01 { cls := .linkFatal, code := 0x05 } 0 1)) ∧
    (∀ configures, s.oracle.reads = garbage ++ .ok [] :: reads → s.oracle.configures = .err :: configures →
      step s = .next (({ s.desync with
        oracle := { s.oracle with reads := reads, configures := configures }
        trace := s.trace ++ readEvents garbage ++ [.rx 1 (.ok []), .sleep 20, .config 7 10 .err] } :
          State).ended 0x01 { cls := .linkFatal, code := 0x03 } 0 0)) ∧
    (∀ (configures : List ConfigResult) (writes : List WriteResult) (echoing : List Event → State), s.txPkt = cmdPacket 0x30 0 0 →
      s.oracle.reads = garbage ++ .ok [] :: reads → s.oracle.configures = .ok :: configures →
      (∀ events, echoing events = { s.sending 0x30 0 0 with
        regime := .blocking, sync := .unsynced, mode := .idle
        oracle := { s.oracle with reads := reads, configures := configures, writes := writes }
        trace := s.trace ++ readEvents garbage ++ [.rx 1 (.ok []), .sleep 20, .config 7 10 .ok] ++ events }) →
      (s.oracle.writes = .err :: writes →
        step s = .next ((echoing [.tx (Config.codec.enc (cmdPacket 0x30 0 0)) .err]).ended 0x01 { cls := .linkFatal, code := 0x06 } 0 9)) ∧
      (∀ n, n < 9 → s.oracle.writes = .ok n :: writes →
        step s = .next ((echoing [.tx (Config.codec.enc (cmdPacket 0x30 0 0)) (.ok n)]).ended 0x01
          { cls := .linkFatal, code := 0x04 } (BitVec.ofNat 16 n) 9)) ∧
      (s.oracle.writes = .ok 9 :: writes →
        (∀ (e : Raise) (u : State),
          receivePacket Config.codec 5 { echoing [.tx (Config.codec.enc (cmdPacket 0x30 0 0)) (.ok 9)] with
            sync := .awaitingEcho, mode := s.mode, point := .awaiting .echo, written := { s.written with txFrame := true } } = .raise e u →
          u.link = s.link ∧ u.regime = .blocking ∧ u.busy = s.busy ∧
            step s = .next (({ u with sync := .unsynced, mode := .idle } : State).ended 0x01
              { cls := e.code.cls, code := e.code.num } e.a e.b)) ∧
        (∀ (f : List Byte) (kind : Byte) (value : Word16) (rest : List ReadResult), reads = .ok f :: rest → FrameOf f kind value →
          (kind = 0x01 →
            step s = .next (({ (echoing [.tx (Config.codec.enc (cmdPacket 0x30 0 0)) (.ok 9), .rx 7 (.ok f)]).holding f 0x01 value with
              sync := .synced, mode := s.mode, oracle := { s.oracle with reads := rest, configures := configures, writes := writes } } :
                State).ended 0x01 { cls := .none, code := 0x00 } 0 0)) ∧
          (kind ≠ 0x01 →
            step s = .next (({ (echoing [.tx (Config.codec.enc (cmdPacket 0x30 0 0)) (.ok 9), .rx 7 (.ok f)]).holding f kind value with
              oracle := { s.oracle with reads := rest, configures := configures, writes := writes } } :
                State).ended 0x01 { cls := .protocolFatal, code := 0x11 } (kind.setWidth 16) 0)))))

/-- R141: however OPEN_AND_SYNC ends other than with success, in the step that accepts it or in a later one, the engine is unsynchronized
and in no mode. -/
def Obligations.FailedBringUpLeavesUnsynced : Prop :=
  ∀ s t : State, s.EndsIn 0x01 t → t.status.cls ≠ .none → t.sync = .unsynced ∧ t.mode = .idle

/-! ### Outcomes -/

/-- R205, R216 to R219: what each outcome of an operation sets, at the point of the raise; and R212's table, which gives every error code its
number and its class. What the buffers and `S.crcReg` hold when the operation has ended is the model's choice (log entry 18). -/
def Obligations.OutcomeSetsStatus : Prop :=
  (∀ c : ErrorCode, (c, c.num, c.cls) ∈ ([
    (.linkOpen, 0x01, .linkFatal), (.linkLock, 0x02, .linkFatal), (.linkAttr, 0x03, .linkFatal), (.writeCount, 0x04, .linkFatal),
    (.readIo, 0x05, .linkFatal), (.writeIo, 0x06, .linkFatal), (.syncExhausted, 0x10, .protocolFatal), (.notInSync, 0x11, .protocolFatal),
    (.wrongEncLen, 0x12, .protocolFatal), (.outOfSync, 0x13, .protocolFatal), (.decodeFailed, 0x14, .protocolFatal),
    (.wrongDecLen, 0x15, .protocolFatal), (.crcMismatch, 0x16, .protocolFatal), (.rawModeFailed, 0x17, .protocolFatal),
    (.triggerModeFailed, 0x18, .protocolFatal), (.notSensorReading, 0x19, .protocolFatal), (.frameDiscarded, 0x20, .soft),
    (.badThresholds, 0x30, .usage), (.sequence, 0x31, .usage), (.illegalOp, 0x32, .usage)] : List (ErrorCode × Byte × StatusClass))) ∧
  ∀ (op : Byte) (e : Raise) (v : Word16) (s : State),
    complete op (.ok (some v) s) = ({ s with result := v } : State).ended op { cls := .none, code := 0x00 } 0 0 ∧
    complete op (.ok none s) = s.ended op { cls := .none, code := 0x00 } 0 0 ∧
    (e.code.cls = .linkFatal ∨ e.code.cls = .protocolFatal →
      complete op (.raise e s) =
        ({ s with sync := .unsynced, mode := .idle } : State).ended op { cls := e.code.cls, code := e.code.num } e.a e.b) ∧
    (e.code.cls = .soft → op ≠ 0x01 →
      complete op (.raise e s) = s.ended op { cls := .soft, code := 0x20 } e.a e.b) ∧
    (e.code.cls = .usage →
      complete op (.raise e s) = s.ended op { cls := .usage, code := e.code.num } e.a e.b)

/-- R205, R206: a request appends one DONE, as its last event and with the status and result it leaves, and frees the port; or it has not
ended, appends none and holds the port. Only OPEN_AND_SYNC may not end. A later step that goes on with an operation does the same. -/
def Obligations.OneDonePerRequest : Prop :=
  (∀ (i : Instr) (op : Byte) (s : State), i.requestCode = some op →
    ∃ t events, exec i s = .next t ∧ (∀ e ∈ events, ∀ p st x y z, e ≠ .done p st x y z) ∧
      ((t.busy = false ∧ t.point = .idle ∧ t.trace = s.trace ++ events ++ [.done op t.status t.diagA t.diagB t.result]) ∨
        (op = 0x01 ∧ t.busy = true ∧ t.point = .draining ∧ t.trace = s.trace ++ events))) ∧
  (∀ (op : Byte) (s t : State), s.resets = [] → s.point.op = some op → step s = .next t →
    ∃ events, (∀ e ∈ events, ∀ p st x y z, e ≠ .done p st x y z) ∧
      ((t.busy = false ∧ t.point = .idle ∧ t.trace = s.trace ++ events ++ [.done op t.status t.diagA t.diagB t.result]) ∨
        (op = 0x01 ∧ t.busy = s.busy ∧ t.point = .draining ∧ t.trace = s.trace ++ events)))

/-- R214: an operation that ends, in the step that accepts it or in a later one, has status success or one of its own error codes. -/
def Obligations.OperationsRaiseTheirCodes : Prop :=
  ∀ (op : Byte) (s t : State), s.EndsIn op t →
    t.status = { cls := .none, code := 0x00 } ∨ ∃ c ∈ codesOf op, t.status = { cls := c.cls, code := c.num }

/-- R216: after any fatal error, in the step that accepts the operation or in a later one, the engine is unsynchronized and in no mode; the
flags and the result are kept, and but for OPEN_AND_SYNC so are the link and its regime. -/
def Obligations.FatalErrorDesynchronizes : Prop :=
  ∀ (op : Byte) (s t : State), s.EndsIn op t → (t.status.cls = .linkFatal ∨ t.status.cls = .protocolFatal) →
    t.sync = .unsynced ∧ t.mode = .idle ∧ t.rawFlag = s.rawFlag ∧ t.debug = s.debug ∧ t.result = s.result ∧
      (op ≠ 0x01 → t.link = s.link ∧ t.regime = s.regime)

/-- R217: a soft error outside OPEN_AND_SYNC changes only the status fields, the resync counter, the receive and transmit buffers, the
oracle and the trace; inside it the engine is unsynchronized (R141). Both hold in the step that accepts the operation and in a later one. -/
def Obligations.SoftErrorKeepsSynchronization : Prop :=
  ∀ (op : Byte) (s t : State), s.EndsIn op t → t.status.cls = .soft →
    (op ≠ 0x01 → t.sync = s.sync ∧ t.mode = s.mode ∧ t.link = s.link ∧ t.regime = s.regime ∧ t.rawFlag = s.rawFlag ∧
      t.debug = s.debug ∧ t.result = s.result ∧ t.syncCount = s.syncCount) ∧
    (op = 0x01 → t.sync = .unsynced ∧ t.mode = .idle)

/-- R218: a usage error changes nothing but the status and diagnostic fields, and no port primitive runs: the trace grows by DONE alone. -/
def Obligations.UsageErrorTouchesNothing : Prop :=
  ∀ (op : Byte) (s t : State), s.EndsIn op t → t.status.cls = .usage → t = s.ended op t.status t.diagA t.diagB

/-- What each request leaves unchanged, however it ends and in the step that accepts it as in a later one: the offers at the port and the resets
to come always; the debug flag but for SET_DEBUG; the raw flag but for SET_RAW_MODE; the link and regime but for OPEN_AND_SYNC and CLOSE; the
result but for CRC16 and READ_SENSOR_VALUE (R36); the bring-up counter but for OPEN_AND_SYNC; the transmit buffers but for the three that send;
and only those three send. That the buffers keep their contents when an operation ends is the model's choice (log entry 18). -/
def Obligations.RequestFrames : Prop :=
  ∀ (op : Byte) (s t : State), s.RunsTo op t →
    t.requests = s.requests ∧ t.resets = s.resets ∧
    (op ≠ 0x06 → t.debug = s.debug) ∧ (op ≠ 0x02 → t.rawFlag = s.rawFlag) ∧
    (op ≠ 0x01 → op ≠ 0x07 → t.link = s.link ∧ t.regime = s.regime) ∧
    (op ≠ 0x04 → op ≠ 0x05 → t.result = s.result) ∧ (op ≠ 0x01 → t.syncCount = s.syncCount) ∧
    (op ≠ 0x01 → op ≠ 0x02 → op ≠ 0x03 → t.txPkt = s.txPkt ∧ t.txFrame = s.txFrame ∧
      ∃ events, t.trace = s.trace ++ events ∧ ∀ e ∈ events, ∀ bytes r, e ≠ .tx bytes r)

/-! ### The step -/

/-- A step runs the decoded instruction: the request at the free port, the command at the encoder, and the response an operation awaits,
each with what the step does around it (R21, R162, R204). An error of the receive ends the awaiting operation. The model's choices: that a
command may stand at the encoder and a step executes it (log entries 3 and 8), and that a step may start where a response is awaited (log
entry 4). -/
def Obligations.StepRunsDecodedInstruction : Prop :=
  ∀ (s : State) (i : Instr), s.resets = [] →
    (∀ r rest, s.point = .idle → s.busy = false → s.requests = r :: rest → decode .hreq (beBytes 5 r.word.toNat) = .ok i →
      step s = exec i { s with requests := rest, reqData := r.data }) ∧
    (∀ command, s.point = .building command → decode .cmd command = .ok i → step s = exec i { s with point := .idle }) ∧
    (∀ x p t, s.point = .awaiting x → receivePacket Config.codec 5 s = .ok p t → decode .rsp p = .ok i → step s = exec i t) ∧
    (∀ x e t, s.point = .awaiting x → receivePacket Config.codec 5 s = .raise e t → step s = .next (complete x.op (.raise e t)))

/-- The model's choice (log entry 4): a step that starts inside an operation is the rest of that operation's own meaning. Where a response is
awaited, it receives, decodes and executes the response's row; in the drain, it drains and, once the drain ends, settles, configures the
blocking regime, echoes and completes (R136 to R140). R162, R170, R185 to R187: a request's own run goes through the same end. From where
SET_RAW_MODE or SET_TRIGGER_MODE has sent its command whole, and READ_SENSOR_VALUE has begun, it is that step; any error of ReceivePacket ends
the request with that error (R216, R217), and a response of another kind ends it with the request's own fatal error (R83). What the buffers and
`S.crcReg` hold when the operation has ended is the model's choice (log entry 18). -/
def Obligations.AwaitingStepIsRestOfRequest : Prop :=
  ∀ s : State,
    (∀ x, s.resets = [] → s.point = .awaiting x → step s = .next (complete x.op (awaitResponse Config.codec x s))) ∧
    (s.resets = [] → s.point = .draining → s.written.txPkt = true → step s = .next (complete 0x01 (drainAndEcho Config.codec s))) ∧
    (∀ (i : Instr) (op wanted code : Byte) (a b : Word16) (o : Oracle) (begun : State), s.sync = .synced →
      (i = .setRawMode a b ∧ op = 0x02 ∧ wanted = 0x02 ∧ code = 0x17 ∧ s.oracle.takeWrite 9 = (.ok 9, o) ∧
          begun = { s.sending 0x10 0 0 with
            busy := true, point := .awaiting .rawMode, crcReg := 0x84C8, oracle := o
            written := { s.written with crcReg := true, txPkt := true, txFrame := true }
            trace := s.trace ++ [.tx (Config.codec.enc (cmdPacket 0x10 0 0)) (.ok 9)] }) ∨
        (i = .setTriggerMode a b ∧ op = 0x03 ∧ wanted = 0x03 ∧ code = 0x18 ∧ a.toInt ≤ b.toInt ∧ s.oracle.takeWrite 9 = (.ok 9, o) ∧
          begun = { s.sending 0x20 a b with
            busy := true, point := .awaiting .triggerMode, crcReg := crcRun 0xFFFF [0x20, hi a, lo a, hi b, lo b], oracle := o
            written := { s.written with crcReg := true, txPkt := true, txFrame := true }
            trace := s.trace ++ [.tx (Config.codec.enc (cmdPacket 0x20 a b)) (.ok 9)] }) ∨
        (i = .readSensorValue a b ∧ op = 0x04 ∧ wanted = 0x00 ∧ code = 0x19 ∧ s.mode ≠ .idle ∧
          begun = { s with busy := true, point := .awaiting .reading }) →
      (s.resets = [] → exec i s = step begun) ∧
      (∀ (e : Raise) (u : State), receivePacket Config.codec 5 begun = .raise e u →
        exec i s = .next ((if e.code = .frameDiscarded then u else u.desync).ended op { cls := e.code.cls, code := e.code.num } e.a e.b)) ∧
      (∀ (kind : Byte) (value : Word16) (u : State), receivePacket Config.codec 5 begun = .ok (rspPacket kind value) u → kind ≠ wanted →
        exec i s = .next (u.desync.ended op { cls := .protocolFatal, code := code } (kind.setWidth 16) 0)))

/-- R203: a busy engine leaves every offer at the port, whatever the step is. The model's choices: so does a step that is, or is cut off by, a
reset (log entry 6); and a free engine without an offer, to which no reset is to come, waits unchanged (log entry 11; R242). -/
def Obligations.BusyPortTakesNoRequest : Prop :=
  ∀ s : State,
    (∀ t, s.busy = true → step s = .next t → t.requests = s.requests) ∧
    (s.resets = [] → s.point = .idle → s.requests = [] → step s = .next s)

/-- R240: reset at any time, before a step or inside it (`stepRunning s` is the step that no reset cuts off, `k` the events it has recorded when
reset comes), takes every field to its value of R41 in that step and empties the trace: no DONE, no CLOSE and no status is recorded. -/
def Obligations.ResetAtAnyTime : Prop :=
  ∀ (s : State) (rest : List Nat),
    (s.resets = 0 :: rest → ∃ t, step s = .next t ∧ t.AtReset) ∧
    (∀ (k : Nat) (u : State), s.resets = (k + 1) :: rest → stepRunning s = .next u → k < u.trace.length - s.trace.length →
      ∃ t, step s = .next t ∧ t.AtReset)

/-- The model's choice (log entries 1 and 6): a reset leaves the model's reset state but for the world at the ports. What the host still offers
stays, and so do the link's answers that the events before the reset had not taken; a request accepted before it is gone. A step that no
reset cuts off runs whole, and the next reset comes that much sooner: but for the field `resets` it is the step to which no reset is to come,
so that what is stated of a step to which none is to come holds of it too. Every request but CRC16, which may draw data bytes, takes from the
link's answers just what its events say. -/
def Obligations.ResetLeavesTheWorld : Prop :=
  ∀ s : State,
    (s.resets = [] → step s = stepRunning s) ∧
    (∀ rest, s.resets = 0 :: rest → step s = .next { State.reset with requests := s.requests, oracle := s.oracle, resets := rest }) ∧
    (∀ (k : Nat) (rest : List Nat) (u : State), s.resets = (k + 1) :: rest → stepRunning s = .next u →
      (k < (s.recorded u).length → step s = .next { State.reset with
        requests := u.requests, oracle := ((s.recorded u).take k).foldl Oracle.after s.oracle, resets := rest }) ∧
      ((s.recorded u).length ≤ k → step s = .next { u with resets := (k - (s.recorded u).length) :: rest })) ∧
    (∀ later : List Nat, stepRunning { s with resets := later } = mapNext (fun u => { u with resets := later }) (stepRunning s)) ∧
    (∀ (k : Nat) (rest : List Nat), s.resets = (k + 1) :: rest →
      (∀ u, step { s with resets := [] } = .next u → (s.recorded u).length ≤ k →
        step s = .next { u with resets := (k - (s.recorded u).length) :: rest }) ∧
      (∀ f, step { s with resets := [] } = .fault f → step s = .fault f) ∧
      (∀ r, step { s with resets := [] } = .refused r → step s = .refused r)) ∧
    (∀ (i : Instr) (op : Byte) (u : State), i.requestCode = some op → op ≠ 0x05 → exec i s = .next u →
      u.oracle = (s.recorded u).foldl Oracle.after s.oracle)

/-- R41: the reset values that the table states; the fields it leaves unspecified are marked unwritten. -/
def Obligations.ResetValues : Prop :=
  State.reset.link = .closed ∧ State.reset.regime = .unconfigured ∧ State.reset.sync = .unsynced ∧ State.reset.mode = .idle ∧
  State.reset.rawFlag = false ∧ State.reset.debug = false ∧ State.reset.syncCount = 0 ∧ State.reset.resyncCount = 0 ∧
  State.reset.written = Written.nothing ∧ State.reset.busy = false ∧ State.reset.status = { cls := .none, code := 0x00 } ∧
  State.reset.diagA = 0 ∧ State.reset.diagB = 0 ∧ State.reset.result = 0 ∧ State.reset.trace = []

/-- The model's choice (log entry 10), from R42's fault on an unspecified read: a step that would go on with a drain whose operation never wrote
the packet stops at its start with the model's fault, before any read of the packet, unless a reset comes first. -/
def Obligations.UnwrittenPacketFaults : Prop :=
  ∀ s : State, s.resets.head? ≠ some 0 → s.point = .draining → s.written.txPkt = false → step s = .fault .unspecifiedRead

/-- R81: HRSP is copies of the status, result and diagnostic fields, the class as R34 and R211 number it; so after an operation it holds what
the operation left. What the host reads beside it is copies of the other fields of R37,
the link and the regime as R23 and R24 number them. -/
def Obligations.HrspCopiesFields : Prop :=
  (∀ s : State, s.hrsp =
    { cls := s.status.cls.num, code := s.status.code, result := s.result, diagA := s.diagA, diagB := s.diagB }) ∧
  StatusClass.none.num = 0 ∧ StatusClass.linkFatal.num = 1 ∧ StatusClass.protocolFatal.num = 2 ∧ StatusClass.soft.num = 3 ∧
  StatusClass.usage.num = 4 ∧
  (∀ (op : Byte) (c : ErrorCode) (a b : Word16) (s : State),
    (s.ended op (Status.ofError c) a b).hrsp = { cls := c.cls.num, code := c.num, result := s.result, diagA := a, diagB := b }) ∧
  (∀ s : State, s.hostView =
    { link := s.link, regime := s.regime, sync := s.sync, mode := s.mode, rawFlag := s.rawFlag, debug := s.debug, busy := s.busy,
      trace := s.trace }) ∧
  LinkState.closed.num = 0 ∧ LinkState.opened.num = 1 ∧ Regime.unconfigured.num = 0 ∧ Regime.drain.num = 1 ∧ Regime.blocking.num = 2

/-! ### Invariants of every step -/

/-- The reset state meets every invariant below. -/
def Obligations.ResetMeetsInvariants : Prop :=
  State.reset.Inv ∧ State.reset.TraceLegal ∧ State.reset.LinkDisciplined

/-- R38: every step keeps the invariant of the engine: between operations, the four conditions of R38; inside one, the fields its point
needs; counters within their budgets; a status whose class belongs to its code; buffers at their widths. -/
def Obligations.StepKeepsInvariant : Prop :=
  ∀ s t : State, s.Inv → step s = .next t → t.Inv

/-- R56, R76, R82, R119: every step keeps the trace legal: all the engine ever sends is the 9-byte frame of a SYNC, RAW or ordered TRIGGER
command, all it ever reads is 1 or 7 bytes, and it configures the link only as drain or blocking. -/
def Obligations.StepKeepsTraceLegal : Prop :=
  ∀ s t : State, s.Inv → s.TraceLegal → step s = .next t → t.TraceLegal

/-- R23, R115: every step keeps the link discipline: no link primitive but LinkOpen while the link is closed, no LinkOpen while it is open, and
`S.link` is what the trace left. -/
def Obligations.StepKeepsLinkDiscipline : Prop :=
  ∀ s t : State, s.Inv → s.LinkDisciplined → step s = .next t → t.LinkDisciplined

/-- From a state that meets the invariant no step faults or refuses but for an undefined command given to the encoder. -/
def Obligations.StepFromInvariantAnswers : Prop :=
  ∀ s : State, s.Inv → (∀ command, s.point = .building command → ∃ i, decode .cmd command = .ok i) → ∃ t, step s = .next t

/-! ### Whole-machine rules -/

/-- R24, R27, R227: no outcome depends on the debug flag, the raw flag or the regime: two states that differ only there step alike. R10: the
arguments of the two `configure` calls and the settle time change nothing but those events' own arguments. -/
def Obligations.UnreadFieldsDoNotMatter : Prop :=
  (∀ s t : State, s.unseen = t.unseen → mapNext State.unseen (step s) = mapNext State.unseen (step t)) ∧
  (∀ (P : Params) (d1 d2 d3 d4 d5 : Nat) (s : State),
    mapNext State.undelayed (execOpenAndSync s (P.withDelays d1 d2 d3 d4 d5)) = mapNext State.undelayed (execOpenAndSync s P))

/-- R27, R190, R255: once set, the raw flag stays set until reset; only a successful SET_RAW_MODE sets it. -/
def Obligations.RawFlagIsSticky : Prop :=
  ∀ s t : State, s.resets = [] → step s = .next t →
    (s.rawFlag = true → t.rawFlag = true) ∧
    (s.rawFlag = false → t.rawFlag = true → t.mode = .rawConfigured ∧
      ∃ events, t.trace = s.trace ++ events ++ [.done 0x02 { cls := .none, code := 0x00 } 0 0 t.result])

/-- R130: a step that is not a reset makes the engine synchronized only by a successful OPEN_AND_SYNC. -/
def Obligations.OnlyBringUpSynchronizes : Prop :=
  ∀ s t : State, s.resets = [] → step s = .next t → s.sync ≠ .synced → t.sync = .synced →
    ∃ events, t.trace = s.trace ++ events ++ [.done 0x01 { cls := .none, code := 0x00 } 0 0 t.result]

/-- R189: how a step that is not a reset moves the mode: to raw or trigger by the success of that mode command, to idle by a fatal error, an
OPEN_AND_SYNC, ended or still in its drain, or a CLOSE; else not at all. -/
def Obligations.ModeTransitions : Prop :=
  ∀ s t : State, s.resets = [] → step s = .next t → t.mode ≠ s.mode →
    (t.mode = .rawConfigured ∧ t.trace.getLast? = some (.done 0x02 { cls := .none, code := 0x00 } 0 0 t.result)) ∨
    (t.mode = .triggerConfigured ∧ t.trace.getLast? = some (.done 0x03 { cls := .none, code := 0x00 } 0 0 t.result)) ∨
    (t.mode = .idle ∧ ((t.busy = true ∧ t.point = .draining) ∨ ∃ op st x y z, t.trace.getLast? = some (.done op st x y z) ∧
      (op = 0x01 ∨ op = 0x07 ∨ st.cls = .linkFatal ∨ st.cls = .protocolFatal)))

/-- R110: the codec port obeys its contract; with it, the round trip of R111. -/
def Obligations.CodecPortObeysContract : Prop :=
  ∀ p : List Byte, p.length = 5 ∨ p.length = 7 →
    (Config.codec.enc p).length = p.length + 2 ∧ (Config.codec.enc p)[p.length + 1]? = some 0x00 ∧
    (∀ i, i ≤ p.length → (Config.codec.enc p)[i]? ≠ some 0x00) ∧ Config.codec.dec (Config.codec.enc p) = some p
end

