-- ==== Sys2Proof/Laws/State.lean ====
section
/-! SUPPORT. What each named update of the state does to each field: one lemma per field, each true by unfolding. -/

namespace Sys2Proof.Machine

/-! `State.record` appends to the trace and changes nothing else. -/

@[simp] theorem State.record_link (e : Event) (s : State) : (s.record e).link = s.link := rfl
@[simp] theorem State.record_regime (e : Event) (s : State) : (s.record e).regime = s.regime := rfl
@[simp] theorem State.record_sync (e : Event) (s : State) : (s.record e).sync = s.sync := rfl
@[simp] theorem State.record_mode (e : Event) (s : State) : (s.record e).mode = s.mode := rfl
@[simp] theorem State.record_rawFlag (e : Event) (s : State) : (s.record e).rawFlag = s.rawFlag := rfl
@[simp] theorem State.record_debug (e : Event) (s : State) : (s.record e).debug = s.debug := rfl
@[simp] theorem State.record_syncCount (e : Event) (s : State) : (s.record e).syncCount = s.syncCount := rfl
@[simp] theorem State.record_resyncCount (e : Event) (s : State) : (s.record e).resyncCount = s.resyncCount := rfl
@[simp] theorem State.record_crcReg (e : Event) (s : State) : (s.record e).crcReg = s.crcReg := rfl
@[simp] theorem State.record_txPkt (e : Event) (s : State) : (s.record e).txPkt = s.txPkt := rfl
@[simp] theorem State.record_txFrame (e : Event) (s : State) : (s.record e).txFrame = s.txFrame := rfl
@[simp] theorem State.record_rxFrame (e : Event) (s : State) : (s.record e).rxFrame = s.rxFrame := rfl
@[simp] theorem State.record_rxPkt (e : Event) (s : State) : (s.record e).rxPkt = s.rxPkt := rfl
@[simp] theorem State.record_written (e : Event) (s : State) : (s.record e).written = s.written := rfl
@[simp] theorem State.record_busy (e : Event) (s : State) : (s.record e).busy = s.busy := rfl
@[simp] theorem State.record_status (e : Event) (s : State) : (s.record e).status = s.status := rfl
@[simp] theorem State.record_diagA (e : Event) (s : State) : (s.record e).diagA = s.diagA := rfl
@[simp] theorem State.record_diagB (e : Event) (s : State) : (s.record e).diagB = s.diagB := rfl
@[simp] theorem State.record_result (e : Event) (s : State) : (s.record e).result = s.result := rfl
@[simp] theorem State.record_trace (e : Event) (s : State) : (s.record e).trace = s.trace ++ [e] := rfl
@[simp] theorem State.record_point (e : Event) (s : State) : (s.record e).point = s.point := rfl
@[simp] theorem State.record_reqData (e : Event) (s : State) : (s.record e).reqData = s.reqData := rfl
@[simp] theorem State.record_requests (e : Event) (s : State) : (s.record e).requests = s.requests := rfl
@[simp] theorem State.record_oracle (e : Event) (s : State) : (s.record e).oracle = s.oracle := rfl
@[simp] theorem State.record_resets (e : Event) (s : State) : (s.record e).resets = s.resets := rfl

/-! `State.desync` writes the synchronization state and the mode and nothing else. -/

@[simp] theorem State.desync_link (s : State) : s.desync.link = s.link := rfl
@[simp] theorem State.desync_regime (s : State) : s.desync.regime = s.regime := rfl
@[simp] theorem State.desync_sync (s : State) : s.desync.sync = .unsynced := rfl
@[simp] theorem State.desync_mode (s : State) : s.desync.mode = .idle := rfl
@[simp] theorem State.desync_rawFlag (s : State) : s.desync.rawFlag = s.rawFlag := rfl
@[simp] theorem State.desync_debug (s : State) : s.desync.debug = s.debug := rfl
@[simp] theorem State.desync_syncCount (s : State) : s.desync.syncCount = s.syncCount := rfl
@[simp] theorem State.desync_resyncCount (s : State) : s.desync.resyncCount = s.resyncCount := rfl
@[simp] theorem State.desync_crcReg (s : State) : s.desync.crcReg = s.crcReg := rfl
@[simp] theorem State.desync_txPkt (s : State) : s.desync.txPkt = s.txPkt := rfl
@[simp] theorem State.desync_txFrame (s : State) : s.desync.txFrame = s.txFrame := rfl
@[simp] theorem State.desync_rxFrame (s : State) : s.desync.rxFrame = s.rxFrame := rfl
@[simp] theorem State.desync_rxPkt (s : State) : s.desync.rxPkt = s.rxPkt := rfl
@[simp] theorem State.desync_written (s : State) : s.desync.written = s.written := rfl
@[simp] theorem State.desync_busy (s : State) : s.desync.busy = s.busy := rfl
@[simp] theorem State.desync_status (s : State) : s.desync.status = s.status := rfl
@[simp] theorem State.desync_diagA (s : State) : s.desync.diagA = s.diagA := rfl
@[simp] theorem State.desync_diagB (s : State) : s.desync.diagB = s.diagB := rfl
@[simp] theorem State.desync_result (s : State) : s.desync.result = s.result := rfl
@[simp] theorem State.desync_trace (s : State) : s.desync.trace = s.trace := rfl
@[simp] theorem State.desync_point (s : State) : s.desync.point = s.point := rfl
@[simp] theorem State.desync_reqData (s : State) : s.desync.reqData = s.reqData := rfl
@[simp] theorem State.desync_requests (s : State) : s.desync.requests = s.requests := rfl
@[simp] theorem State.desync_oracle (s : State) : s.desync.oracle = s.oracle := rfl
@[simp] theorem State.desync_resets (s : State) : s.desync.resets = s.resets := rfl

/-! `State.closed` writes the four session fields and nothing else. -/

@[simp] theorem State.closed_link (s : State) : s.closed.link = .closed := rfl
@[simp] theorem State.closed_regime (s : State) : s.closed.regime = .unconfigured := rfl
@[simp] theorem State.closed_sync (s : State) : s.closed.sync = .unsynced := rfl
@[simp] theorem State.closed_mode (s : State) : s.closed.mode = .idle := rfl
@[simp] theorem State.closed_rawFlag (s : State) : s.closed.rawFlag = s.rawFlag := rfl
@[simp] theorem State.closed_debug (s : State) : s.closed.debug = s.debug := rfl
@[simp] theorem State.closed_syncCount (s : State) : s.closed.syncCount = s.syncCount := rfl
@[simp] theorem State.closed_resyncCount (s : State) : s.closed.resyncCount = s.resyncCount := rfl
@[simp] theorem State.closed_crcReg (s : State) : s.closed.crcReg = s.crcReg := rfl
@[simp] theorem State.closed_txPkt (s : State) : s.closed.txPkt = s.txPkt := rfl
@[simp] theorem State.closed_txFrame (s : State) : s.closed.txFrame = s.txFrame := rfl
@[simp] theorem State.closed_rxFrame (s : State) : s.closed.rxFrame = s.rxFrame := rfl
@[simp] theorem State.closed_rxPkt (s : State) : s.closed.rxPkt = s.rxPkt := rfl
@[simp] theorem State.closed_written (s : State) : s.closed.written = s.written := rfl
@[simp] theorem State.closed_busy (s : State) : s.closed.busy = s.busy := rfl
@[simp] theorem State.closed_status (s : State) : s.closed.status = s.status := rfl
@[simp] theorem State.closed_diagA (s : State) : s.closed.diagA = s.diagA := rfl
@[simp] theorem State.closed_diagB (s : State) : s.closed.diagB = s.diagB := rfl
@[simp] theorem State.closed_result (s : State) : s.closed.result = s.result := rfl
@[simp] theorem State.closed_trace (s : State) : s.closed.trace = s.trace := rfl
@[simp] theorem State.closed_point (s : State) : s.closed.point = s.point := rfl
@[simp] theorem State.closed_reqData (s : State) : s.closed.reqData = s.reqData := rfl
@[simp] theorem State.closed_requests (s : State) : s.closed.requests = s.requests := rfl
@[simp] theorem State.closed_oracle (s : State) : s.closed.oracle = s.oracle := rfl
@[simp] theorem State.closed_resets (s : State) : s.closed.resets = s.resets := rfl

/-! `State.takeRequest` moves the request off the port and changes nothing else. -/

@[simp] theorem State.takeRequest_link (r : Request) (rest : List Request) (s : State) : (s.takeRequest r rest).link = s.link := rfl
@[simp] theorem State.takeRequest_regime (r : Request) (rest : List Request) (s : State) : (s.takeRequest r rest).regime = s.regime := rfl
@[simp] theorem State.takeRequest_sync (r : Request) (rest : List Request) (s : State) : (s.takeRequest r rest).sync = s.sync := rfl
@[simp] theorem State.takeRequest_mode (r : Request) (rest : List Request) (s : State) : (s.takeRequest r rest).mode = s.mode := rfl
@[simp] theorem State.takeRequest_rawFlag (r : Request) (rest : List Request) (s : State) : (s.takeRequest r rest).rawFlag = s.rawFlag := rfl
@[simp] theorem State.takeRequest_debug (r : Request) (rest : List Request) (s : State) : (s.takeRequest r rest).debug = s.debug := rfl
@[simp] theorem State.takeRequest_syncCount (r : Request) (rest : List Request) (s : State) : (s.takeRequest r rest).syncCount = s.syncCount := rfl
@[simp] theorem State.takeRequest_resyncCount (r : Request) (rest : List Request) (s : State) : (s.takeRequest r rest).resyncCount = s.resyncCount := rfl
@[simp] theorem State.takeRequest_crcReg (r : Request) (rest : List Request) (s : State) : (s.takeRequest r rest).crcReg = s.crcReg := rfl
@[simp] theorem State.takeRequest_txPkt (r : Request) (rest : List Request) (s : State) : (s.takeRequest r rest).txPkt = s.txPkt := rfl
@[simp] theorem State.takeRequest_txFrame (r : Request) (rest : List Request) (s : State) : (s.takeRequest r rest).txFrame = s.txFrame := rfl
@[simp] theorem State.takeRequest_rxFrame (r : Request) (rest : List Request) (s : State) : (s.takeRequest r rest).rxFrame = s.rxFrame := rfl
@[simp] theorem State.takeRequest_rxPkt (r : Request) (rest : List Request) (s : State) : (s.takeRequest r rest).rxPkt = s.rxPkt := rfl
@[simp] theorem State.takeRequest_written (r : Request) (rest : List Request) (s : State) : (s.takeRequest r rest).written = s.written := rfl
@[simp] theorem State.takeRequest_busy (r : Request) (rest : List Request) (s : State) : (s.takeRequest r rest).busy = s.busy := rfl
@[simp] theorem State.takeRequest_status (r : Request) (rest : List Request) (s : State) : (s.takeRequest r rest).status = s.status := rfl
@[simp] theorem State.takeRequest_diagA (r : Request) (rest : List Request) (s : State) : (s.takeRequest r rest).diagA = s.diagA := rfl
@[simp] theorem State.takeRequest_diagB (r : Request) (rest : List Request) (s : State) : (s.takeRequest r rest).diagB = s.diagB := rfl
@[simp] theorem State.takeRequest_result (r : Request) (rest : List Request) (s : State) : (s.takeRequest r rest).result = s.result := rfl
@[simp] theorem State.takeRequest_trace (r : Request) (rest : List Request) (s : State) : (s.takeRequest r rest).trace = s.trace := rfl
@[simp] theorem State.takeRequest_point (r : Request) (rest : List Request) (s : State) : (s.takeRequest r rest).point = s.point := rfl
@[simp] theorem State.takeRequest_reqData (r : Request) (rest : List Request) (s : State) : (s.takeRequest r rest).reqData = r.data := rfl
@[simp] theorem State.takeRequest_requests (r : Request) (rest : List Request) (s : State) : (s.takeRequest r rest).requests = rest := rfl
@[simp] theorem State.takeRequest_oracle (r : Request) (rest : List Request) (s : State) : (s.takeRequest r rest).oracle = s.oracle := rfl
@[simp] theorem State.takeRequest_resets (r : Request) (rest : List Request) (s : State) : (s.takeRequest r rest).resets = s.resets := rfl

/-! `finish` writes the outcome, records it and frees the port. -/

@[simp] theorem finish_link (op : Byte) (st : Status) (a b v : Word16) (s : State) : (finish op st a b v s).link = s.link := rfl
@[simp] theorem finish_regime (op : Byte) (st : Status) (a b v : Word16) (s : State) : (finish op st a b v s).regime = s.regime := rfl
@[simp] theorem finish_sync (op : Byte) (st : Status) (a b v : Word16) (s : State) : (finish op st a b v s).sync = s.sync := rfl
@[simp] theorem finish_mode (op : Byte) (st : Status) (a b v : Word16) (s : State) : (finish op st a b v s).mode = s.mode := rfl
@[simp] theorem finish_rawFlag (op : Byte) (st : Status) (a b v : Word16) (s : State) : (finish op st a b v s).rawFlag = s.rawFlag := rfl
@[simp] theorem finish_debug (op : Byte) (st : Status) (a b v : Word16) (s : State) : (finish op st a b v s).debug = s.debug := rfl
@[simp] theorem finish_syncCount (op : Byte) (st : Status) (a b v : Word16) (s : State) : (finish op st a b v s).syncCount = s.syncCount := rfl
@[simp] theorem finish_resyncCount (op : Byte) (st : Status) (a b v : Word16) (s : State) : (finish op st a b v s).resyncCount = s.resyncCount := rfl
@[simp] theorem finish_crcReg (op : Byte) (st : Status) (a b v : Word16) (s : State) : (finish op st a b v s).crcReg = s.crcReg := rfl
@[simp] theorem finish_txPkt (op : Byte) (st : Status) (a b v : Word16) (s : State) : (finish op st a b v s).txPkt = s.txPkt := rfl
@[simp] theorem finish_txFrame (op : Byte) (st : Status) (a b v : Word16) (s : State) : (finish op st a b v s).txFrame = s.txFrame := rfl
@[simp] theorem finish_rxFrame (op : Byte) (st : Status) (a b v : Word16) (s : State) : (finish op st a b v s).rxFrame = s.rxFrame := rfl
@[simp] theorem finish_rxPkt (op : Byte) (st : Status) (a b v : Word16) (s : State) : (finish op st a b v s).rxPkt = s.rxPkt := rfl
@[simp] theorem finish_written (op : Byte) (st : Status) (a b v : Word16) (s : State) : (finish op st a b v s).written = Written.nothing := rfl
@[simp] theorem finish_busy (op : Byte) (st : Status) (a b v : Word16) (s : State) : (finish op st a b v s).busy = false := rfl
@[simp] theorem finish_status (op : Byte) (st : Status) (a b v : Word16) (s : State) : (finish op st a b v s).status = st := rfl
@[simp] theorem finish_diagA (op : Byte) (st : Status) (a b v : Word16) (s : State) : (finish op st a b v s).diagA = a := rfl
@[simp] theorem finish_diagB (op : Byte) (st : Status) (a b v : Word16) (s : State) : (finish op st a b v s).diagB = b := rfl
@[simp] theorem finish_result (op : Byte) (st : Status) (a b v : Word16) (s : State) : (finish op st a b v s).result = v := rfl
@[simp] theorem finish_trace (op : Byte) (st : Status) (a b v : Word16) (s : State) : (finish op st a b v s).trace = s.trace ++ [.done op st a b v] := rfl
@[simp] theorem finish_point (op : Byte) (st : Status) (a b v : Word16) (s : State) : (finish op st a b v s).point = .idle := rfl
@[simp] theorem finish_reqData (op : Byte) (st : Status) (a b v : Word16) (s : State) : (finish op st a b v s).reqData = [] := rfl
@[simp] theorem finish_requests (op : Byte) (st : Status) (a b v : Word16) (s : State) : (finish op st a b v s).requests = s.requests := rfl
@[simp] theorem finish_oracle (op : Byte) (st : Status) (a b v : Word16) (s : State) : (finish op st a b v s).oracle = s.oracle := rfl
@[simp] theorem finish_resets (op : Byte) (st : Status) (a b v : Word16) (s : State) : (finish op st a b v s).resets = s.resets := rfl

/-! `State.ended` writes what every operation's end writes. -/

@[simp] theorem State.ended_link (op : Byte) (st : Status) (a b : Word16) (s : State) : (s.ended op st a b).link = s.link := rfl
@[simp] theorem State.ended_regime (op : Byte) (st : Status) (a b : Word16) (s : State) : (s.ended op st a b).regime = s.regime := rfl
@[simp] theorem State.ended_sync (op : Byte) (st : Status) (a b : Word16) (s : State) : (s.ended op st a b).sync = s.sync := rfl
@[simp] theorem State.ended_mode (op : Byte) (st : Status) (a b : Word16) (s : State) : (s.ended op st a b).mode = s.mode := rfl
@[simp] theorem State.ended_rawFlag (op : Byte) (st : Status) (a b : Word16) (s : State) : (s.ended op st a b).rawFlag = s.rawFlag := rfl
@[simp] theorem State.ended_debug (op : Byte) (st : Status) (a b : Word16) (s : State) : (s.ended op st a b).debug = s.debug := rfl
@[simp] theorem State.ended_syncCount (op : Byte) (st : Status) (a b : Word16) (s : State) : (s.ended op st a b).syncCount = s.syncCount := rfl
@[simp] theorem State.ended_resyncCount (op : Byte) (st : Status) (a b : Word16) (s : State) : (s.ended op st a b).resyncCount = s.resyncCount := rfl
@[simp] theorem State.ended_crcReg (op : Byte) (st : Status) (a b : Word16) (s : State) : (s.ended op st a b).crcReg = s.crcReg := rfl
@[simp] theorem State.ended_txPkt (op : Byte) (st : Status) (a b : Word16) (s : State) : (s.ended op st a b).txPkt = s.txPkt := rfl
@[simp] theorem State.ended_txFrame (op : Byte) (st : Status) (a b : Word16) (s : State) : (s.ended op st a b).txFrame = s.txFrame := rfl
@[simp] theorem State.ended_rxFrame (op : Byte) (st : Status) (a b : Word16) (s : State) : (s.ended op st a b).rxFrame = s.rxFrame := rfl
@[simp] theorem State.ended_rxPkt (op : Byte) (st : Status) (a b : Word16) (s : State) : (s.ended op st a b).rxPkt = s.rxPkt := rfl
@[simp] theorem State.ended_written (op : Byte) (st : Status) (a b : Word16) (s : State) : (s.ended op st a b).written = Written.nothing := rfl
@[simp] theorem State.ended_busy (op : Byte) (st : Status) (a b : Word16) (s : State) : (s.ended op st a b).busy = false := rfl
@[simp] theorem State.ended_status (op : Byte) (st : Status) (a b : Word16) (s : State) : (s.ended op st a b).status = st := rfl
@[simp] theorem State.ended_diagA (op : Byte) (st : Status) (a b : Word16) (s : State) : (s.ended op st a b).diagA = a := rfl
@[simp] theorem State.ended_diagB (op : Byte) (st : Status) (a b : Word16) (s : State) : (s.ended op st a b).diagB = b := rfl
@[simp] theorem State.ended_result (op : Byte) (st : Status) (a b : Word16) (s : State) : (s.ended op st a b).result = s.result := rfl
@[simp] theorem State.ended_trace (op : Byte) (st : Status) (a b : Word16) (s : State) : (s.ended op st a b).trace = s.trace ++ [.done op st a b s.result] := rfl
@[simp] theorem State.ended_point (op : Byte) (st : Status) (a b : Word16) (s : State) : (s.ended op st a b).point = .idle := rfl
@[simp] theorem State.ended_reqData (op : Byte) (st : Status) (a b : Word16) (s : State) : (s.ended op st a b).reqData = [] := rfl
@[simp] theorem State.ended_requests (op : Byte) (st : Status) (a b : Word16) (s : State) : (s.ended op st a b).requests = s.requests := rfl
@[simp] theorem State.ended_oracle (op : Byte) (st : Status) (a b : Word16) (s : State) : (s.ended op st a b).oracle = s.oracle := rfl
@[simp] theorem State.ended_resets (op : Byte) (st : Status) (a b : Word16) (s : State) : (s.ended op st a b).resets = s.resets := rfl

/-! Reset keeps the world at the ports and nothing of the engine. -/

@[simp] theorem State.applyReset_link (s : State) : s.applyReset.link = State.reset.link := rfl
@[simp] theorem State.applyReset_regime (s : State) : s.applyReset.regime = State.reset.regime := rfl
@[simp] theorem State.applyReset_sync (s : State) : s.applyReset.sync = State.reset.sync := rfl
@[simp] theorem State.applyReset_mode (s : State) : s.applyReset.mode = State.reset.mode := rfl
@[simp] theorem State.applyReset_rawFlag (s : State) : s.applyReset.rawFlag = State.reset.rawFlag := rfl
@[simp] theorem State.applyReset_debug (s : State) : s.applyReset.debug = State.reset.debug := rfl
@[simp] theorem State.applyReset_syncCount (s : State) : s.applyReset.syncCount = State.reset.syncCount := rfl
@[simp] theorem State.applyReset_resyncCount (s : State) : s.applyReset.resyncCount = State.reset.resyncCount := rfl
@[simp] theorem State.applyReset_crcReg (s : State) : s.applyReset.crcReg = State.reset.crcReg := rfl
@[simp] theorem State.applyReset_txPkt (s : State) : s.applyReset.txPkt = State.reset.txPkt := rfl
@[simp] theorem State.applyReset_txFrame (s : State) : s.applyReset.txFrame = State.reset.txFrame := rfl
@[simp] theorem State.applyReset_rxFrame (s : State) : s.applyReset.rxFrame = State.reset.rxFrame := rfl
@[simp] theorem State.applyReset_rxPkt (s : State) : s.applyReset.rxPkt = State.reset.rxPkt := rfl
@[simp] theorem State.applyReset_written (s : State) : s.applyReset.written = State.reset.written := rfl
@[simp] theorem State.applyReset_busy (s : State) : s.applyReset.busy = State.reset.busy := rfl
@[simp] theorem State.applyReset_status (s : State) : s.applyReset.status = State.reset.status := rfl
@[simp] theorem State.applyReset_diagA (s : State) : s.applyReset.diagA = State.reset.diagA := rfl
@[simp] theorem State.applyReset_diagB (s : State) : s.applyReset.diagB = State.reset.diagB := rfl
@[simp] theorem State.applyReset_result (s : State) : s.applyReset.result = State.reset.result := rfl
@[simp] theorem State.applyReset_trace (s : State) : s.applyReset.trace = State.reset.trace := rfl
@[simp] theorem State.applyReset_point (s : State) : s.applyReset.point = State.reset.point := rfl
@[simp] theorem State.applyReset_reqData (s : State) : s.applyReset.reqData = State.reset.reqData := rfl
@[simp] theorem State.applyReset_requests (s : State) : s.applyReset.requests = s.requests := rfl
@[simp] theorem State.applyReset_oracle (s : State) : s.applyReset.oracle = s.oracle := rfl
@[simp] theorem State.applyReset_resets (s : State) : s.applyReset.resets = s.resets.tail := rfl

end Sys2Proof.Machine
end

