-- ==== Sys2Proof/Laws/Ops.lean ====
section
/-! SUPPORT. One lemma for each shared operation of Machine/Ops.lean and Machine/Sync.lean that says once everything the operation can do,
and the equations of operands and packets that those lemmas and later proofs need. -/

namespace Sys2Proof.Machine

/-! ### The frame lengths of this hardware -/

@[simp] theorem cmdEncLen_eq : Config.params.cmdEncLen = 9 := rfl

@[simp] theorem rspEncLen_eq : Config.params.rspEncLen = 7 := rfl

/-! ### Operands and packets -/

theorem be16_hi_lo (v : Word16) : be16 (hi v) (lo v) = v := by
  apply BitVec.eq_of_toNat_eq
  simp [be16, hi, lo]
  omega

theorem hi_be16 (h l : Byte) : hi (be16 h l) = h := by
  apply BitVec.eq_of_toNat_eq
  simp [be16, hi]
  omega

theorem lo_be16 (h l : Byte) : lo (be16 h l) = l := by
  apply BitVec.eq_of_toNat_eq
  simp [be16, lo]
  omega

@[simp] theorem cmdPacket_length (opc : Byte) (a b : Word16) : (cmdPacket opc a b).length = 7 := rfl

@[simp] theorem rspPacket_length (kind : Byte) (value : Word16) : (rspPacket kind value).length = 5 := rfl

@[simp] theorem kindOf_rspPacket (kind : Byte) (value : Word16) : kindOf (rspPacket kind value) = kind := rfl

@[simp] theorem valueOf_rspPacket (kind : Byte) (value : Word16) : valueOf (rspPacket kind value) = value := be16_hi_lo value

/-- The generator's register at the parameters of this hardware. -/
@[simp] theorem crcRegister_eq (data : List Byte) (n : Nat) : crcRegister data n = crcRun (0xFFFF : Word16) (data.take n) := rfl

theorem crc16_of_length (data : List Byte) : crc16 data data.length = crcRun (0xFFFF : Word16) data ^^^ 0xFFFF := by
  cases data with
  | nil => decide
  | cons d data => simp [crc16, crcSwap, crcComplement]

/-- The codec port's frame of a command packet is nine bytes long (R110). -/
theorem encoded_length (opc : Byte) (a b : Word16) : (Config.codec.enc (cmdPacket opc a b)).length = 9 :=
  Config.lawfulCodec.enc_length (cmdPacket opc a b) (.inl rfl)

/-- The codec port decodes the frame it made of a response packet (R111). -/
theorem decoded_response (kind : Byte) (value : Word16) :
    Config.codec.dec (Config.codec.enc (rspPacket kind value)) = some (rspPacket kind value) :=
  Config.lawfulCodec.dec_enc (rspPacket kind value) (.inr rfl)

/-- The codec port's frame of a response packet is one that ReceivePacket accepts (R110, R162). -/
theorem frameOf_encoded (kind : Byte) (value : Word16) : FrameOf (Config.codec.enc (rspPacket kind value)) kind value :=
  ⟨Config.lawfulCodec.enc_length _ (.inr rfl), Config.lawfulCodec.enc_last _ (.inr rfl), decoded_response kind value⟩

@[simp] theorem buildCmd_eq (opc : Byte) (a b : Word16) (s : State) :
    buildCmd opc a b s = { s with
      txPkt := cmdPacket opc a b, crcReg := crcRun 0xFFFF (cmdBody opc a b)
      written := { s.written with crcReg := true, txPkt := true } } := rfl

theorem buildSync_eq (s : State) : buildSync s = { s with
    txPkt := cmdPacket 0x30 0 0, crcReg := crcRun 0xFFFF (cmdBody 0x30 0 0)
    written := { s.written with crcReg := true, txPkt := true } } := buildCmd_eq 0x30 0 0 s

theorem buildRaw_eq (s : State) : buildRaw s = { s with
    txPkt := cmdPacket 0x10 0 0, crcReg := crcRun 0xFFFF (cmdBody 0x10 0 0)
    written := { s.written with crcReg := true, txPkt := true } } := buildCmd_eq 0x10 0 0 s

theorem buildTrigger_eq (low high : Word16) (s : State) : buildTrigger low high s = { s with
    txPkt := cmdPacket 0x20 low high, crcReg := crcRun 0xFFFF (cmdBody 0x20 low high)
    written := { s.written with crcReg := true, txPkt := true } } := buildCmd_eq 0x20 low high s

/-! ### The link primitives -/

/-- The event of a read of at most `n` bytes, its answer within the contract (R116). -/
def Event.ReadOf (n : Nat) (e : Event) : Prop := ∃ r : ReadResult, e = .rx n (r.within n)

/-- The event of a write of this frame, its answer within the contract (R117). -/
def Event.SendOf (frame : List Byte) (e : Event) : Prop := ∃ r : WriteResult, e = .tx frame (r.within frame.length)

theorem linkRead_spec (n : Nat) (s : State) :
    ∃ (r : ReadResult) (o : Oracle), s.oracle.takeRead n = (r.within n, o) ∧
      linkRead n s = (r.within n, { s with oracle := o, trace := s.trace ++ [.rx n (r.within n)] }) := by
  unfold linkRead Oracle.takeRead
  split <;> exact ⟨_, _, rfl, rfl⟩

theorem linkWrite_spec (frame : List Byte) (s : State) :
    ∃ (r : WriteResult) (o : Oracle), s.oracle.takeWrite frame.length = (r.within frame.length, o) ∧
      linkWrite frame s = (r.within frame.length, { s with oracle := o, trace := s.trace ++ [.tx frame (r.within frame.length)] }) := by
  unfold linkWrite Oracle.takeWrite
  split <;> exact ⟨_, _, rfl, rfl⟩

theorem linkOpen_spec (s : State) :
    ∃ (r : OpenResult) (o : Oracle), s.oracle.takeOpen = (r, o) ∧
      linkOpen s = (r, { s with oracle := o, trace := s.trace ++ [.linkOpen r] }) := ⟨_, _, rfl, rfl⟩

theorem linkConfigure_spec (min tds : Nat) (s : State) :
    ∃ (r : ConfigResult) (o : Oracle), s.oracle.takeConfigure = (r, o) ∧
      linkConfigure min tds s = (r, { s with oracle := o, trace := s.trace ++ [.config min tds r] }) := ⟨_, _, rfl, rfl⟩

theorem ReadResult.within_length {n : Nat} {r : ReadResult} {bytes : List Byte} (h : r.within n = .ok bytes) : bytes.length ≤ n := by
  cases r with
  | ok l => simp only [ReadResult.within, ReadResult.ok.injEq] at h; simp [← h]
  | err => simp [ReadResult.within] at h

theorem WriteResult.within_count {len n : Nat} {r : WriteResult} (h : r.within len = .ok n) : n ≤ len := by
  cases r with
  | ok k => simp only [WriteResult.within, WriteResult.ok.injEq] at h; omega
  | err => simp [WriteResult.within] at h

/-! ### SendCommand -/

/-- What sending a packet leaves (R160): the frame, the oracle and one write event. -/
def Sent (C : Codec) (pkt : List Byte) (s t : State) : Prop :=
  ∃ (r : WriteResult) (o : Oracle), t = { s with
    txFrame := C.enc pkt, written := { s.written with txFrame := true }, oracle := o
    trace := s.trace ++ [.tx (C.enc pkt) (r.within (C.enc pkt).length)] }

theorem sendCommand_eq (C : Codec) (pkt : List Byte) (s t : State) (r : WriteResult) (o : Oracle)
    (h : s.oracle.takeWrite (C.enc pkt).length = (r, o))
    (ht : t = { s with
      txFrame := C.enc pkt, written := { s.written with txFrame := true }, oracle := o, trace := s.trace ++ [.tx (C.enc pkt) r] }) :
    (r = .err → sendCommand C pkt s = .raise { code := .writeIo, a := 0, b := 9 } t) ∧
      (r = .ok 9 → sendCommand C pkt s = .ok () t) ∧
      (∀ n, n ≠ 9 → r = .ok n → sendCommand C pkt s = .raise { code := .writeCount, a := sat16 n, b := 9 } t) := by
  subst ht
  refine ⟨?_, ?_, fun n hn => ?_⟩ <;> rintro rfl <;> simp only [sendCommand, linkWrite, h]
  · rfl
  · rfl
  · simp [hn, State.record, sat16]

theorem sendCommand_spec (C : Codec) (pkt : List Byte) (s : State) :
    ∃ t, Sent C pkt s t ∧
      (sendCommand C pkt s = .ok () t ∨
        ∃ e, (e.code = .writeIo ∨ e.code = .writeCount) ∧ sendCommand C pkt s = .raise e t) := by
  obtain ⟨r, o, h, -⟩ := linkWrite_spec (C.enc pkt) s
  obtain ⟨herr, hok, hcount⟩ := sendCommand_eq C pkt s _ _ _ h rfl
  refine ⟨_, ⟨r, o, rfl⟩, ?_⟩
  cases hr : r.within (C.enc pkt).length with
  | err => rw [hr] at herr; exact .inr ⟨_, .inl rfl, herr rfl⟩
  | ok n =>
    rw [hr] at hok hcount
    by_cases hn : n = 9
    · subst hn; exact .inl (hok rfl)
    · exact .inr ⟨_, .inr rfl, hcount n hn rfl⟩

/-! ### Resync and ReceivePacket -/

theorem resyncLoop_spec (n : Nat) (s : State) :
    ∃ (k : Nat) (es : List Event) (o : Oracle), k ≤ n ∧ (∀ e ∈ es, e.ReadOf 1) ∧
      ((∃ b, resyncLoop n s = .ok b { s with resyncCount := s.resyncCount + k, oracle := o, trace := s.trace ++ es }) ∨
        ∃ e, e.code = .readIo ∧
          resyncLoop n s = .raise e { s with resyncCount := s.resyncCount + k, oracle := o, trace := s.trace ++ es }) := by
  induction n generalizing s with
  | zero => exact ⟨0, [], s.oracle, by omega, by simp, .inl ⟨false, by simp [resyncLoop]⟩⟩
  | succ n ih =>
    obtain ⟨r, o, -, h⟩ := linkRead_spec 1 s
    cases hr : r.within 1 with
    | err =>
      rw [hr] at h
      refine ⟨0, [.rx 1 .err], o, by omega, fun e he => ⟨.err, ?_⟩, .inr ⟨{ code := .readIo, a := 0, b := 1 }, rfl, ?_⟩⟩
      · simpa [ReadResult.within] using he
      · simp only [resyncLoop, h, Nat.add_zero]
    | ok bytes =>
      have hb : Event.ReadOf 1 (.rx 1 (.ok bytes)) := ⟨r, by rw [hr]⟩
      rw [hr] at h
      by_cases hz : bytes = [Config.terminator]
      · exact ⟨1, [.rx 1 (.ok bytes)], o, by omega, by simpa using hb,
          .inl ⟨true, by simp only [resyncLoop, h, hz, if_true]⟩⟩
      · obtain ⟨k, es, o', hk, hes, hres⟩ := ih { s with
          resyncCount := s.resyncCount + 1, oracle := o, trace := s.trace ++ [.rx 1 (.ok bytes)] }
        refine ⟨k + 1, .rx 1 (.ok bytes) :: es, o', by omega, ?_, ?_⟩
        · simpa using ⟨hb, hes⟩
        · simpa only [resyncLoop, h, hz, if_false, List.append_assoc, List.singleton_append, Nat.add_assoc, Nat.add_comm 1 k] using hres

theorem resync_spec (s : State) :
    ∃ (k : Nat) (es : List Event) (o : Oracle), k ≤ 100 ∧ (∀ e ∈ es, e.ReadOf 1) ∧
      ((∃ b, resync s = .ok b { s with resyncCount := k, oracle := o, trace := s.trace ++ es }) ∨
        ∃ e, e.code = .readIo ∧ resync s = .raise e { s with resyncCount := k, oracle := o, trace := s.trace ++ es }) := by
  simpa [resync] using resyncLoop_spec Config.resyncAttempts { s with resyncCount := 0 }

/-- What receiving a packet may leave (R162): the receive buffers, the CRC register, the resync counter, the oracle and read events. -/
def Received (s t : State) : Prop :=
  ∃ (k : Nat) (x y : List Byte) (c : Word16) (w : Written) (o : Oracle) (es : List Event),
    (k = s.resyncCount ∨ k ≤ 100) ∧ (∀ e ∈ es, e.ReadOf 7 ∨ e.ReadOf 1) ∧
    t = { s with resyncCount := k, rxFrame := x, rxPkt := y, crcReg := c, written := w, oracle := o, trace := s.trace ++ es }

/-- The codes ReceivePacket raises (R169). -/
def receiveCodes : List ErrorCode :=
  [.readIo, .wrongEncLen, .outOfSync, .frameDiscarded, .decodeFailed, .wrongDecLen, .crcMismatch]

/-- A packet that passed every check (R168). -/
def Validated (p : List Byte) : Prop := ∃ (kind : Byte) (value : Word16), p = rspPacket kind value

theorem checkCrc_spec (s : State) (d : List Byte) (hd : d.length = 5) (hs : s.rxPkt = d) :
    ∃ (c : Word16) (w : Written), (Validated d ∧ checkCrc 5 s = .ok d { s with crcReg := c, written := w }) ∨
      ∃ e, e.code = .crcMismatch ∧ checkCrc 5 s = .raise e { s with crcReg := c, written := w } := by
  match d, hd with
  | [k, v1, v0, c1, c0], _ =>
    refine ⟨crcRun Config.crcInit [k, v1, v0], { s.written with crcReg := true }, ?_⟩
    by_cases h : be16 c1 c0 = crc16 [k, v1, v0] 3
    · refine .inl ⟨⟨k, be16 v1 v0, ?_⟩, ?_⟩
      · simp [rspPacket, hi_be16, lo_be16, ← h]
      · have : crc16 [k, v1, v0, c1, c0] 3 = crc16 [k, v1, v0] 3 := rfl
        simp [checkCrc, crcUnit, crcFieldOf, hs, h, this]
    · refine .inr ⟨{ code := .crcMismatch, a := be16 c1 c0, b := crc16 [k, v1, v0] 3 }, rfl, ?_⟩
      have : crc16 [k, v1, v0, c1, c0] 3 = crc16 [k, v1, v0] 3 := rfl
      simp [checkCrc, crcUnit, crcFieldOf, hs, h, this]

/-- ReceivePacket up to the check of the terminator, by the answer of its one read (R162 to R165). -/
theorem receivePacket_eq (C : Codec) (s t : State) (r : ReadResult) (bytes : List Byte) (o : Oracle) (h : s.oracle.takeRead 7 = (r, o))
    (ht : t = { s with
      rxFrame := bytes, written := { s.written with rxFrame := true }, oracle := o, trace := s.trace ++ [.rx 7 r] }) :
    (r = .err →
      receivePacket C 5 s = .raise { code := .readIo, a := 0, b := 7 } { s with oracle := o, trace := s.trace ++ [.rx 7 r] }) ∧
    (r = .ok bytes →
      (bytes.length ≠ 7 → receivePacket C 5 s = .raise { code := .wrongEncLen, a := sat16 bytes.length, b := 7 } t) ∧
      (bytes.length = 7 → bytes[6]? ≠ some 0x00 → receivePacket C 5 s = discardFrame t) ∧
      (bytes.length = 7 → bytes[6]? = some 0x00 → receivePacket C 5 s = unpackFrame C 5 t)) := by
  subst ht
  have h' : s.oracle.takeRead (5 + 2) = (r, o) := h
  refine ⟨?_, fun hb => ⟨fun hn => ?_, fun hn hl => ?_, fun hn hl => ?_⟩⟩
  · rintro rfl
    simp only [receivePacket, linkRead, h', Config.frameOverhead]
    rfl
  · subst hb
    simp only [receivePacket, linkRead, h', Config.frameOverhead]
    rw [if_neg hn]
    rfl
  · subst hb
    simp only [receivePacket, linkRead, h', Config.frameOverhead]
    rw [if_pos hn, if_neg hl]
    rfl
  · subst hb
    simp only [receivePacket, linkRead, h', Config.frameOverhead]
    rw [if_pos hn, if_pos hl]
    rfl

theorem discardFrame_spec (s : State) :
    ∃ (k : Nat) (es : List Event) (o : Oracle) (e : Raise), k ≤ 100 ∧ (∀ e ∈ es, e.ReadOf 1) ∧
      (e.code = .readIo ∨ e.code = .frameDiscarded ∨ e.code = .outOfSync) ∧
      discardFrame s = .raise e { s with resyncCount := k, oracle := o, trace := s.trace ++ es } := by
  obtain ⟨k, es, o, hk, hes, ⟨b, hres⟩ | ⟨e, he, hres⟩⟩ := resync_spec s
  · refine ⟨k, es, o, { code := if b then .frameDiscarded else .outOfSync, a := sat16 k, b := 0 }, hk, hes, by cases b <;> simp, ?_⟩
    simp only [discardFrame, hres, Res.bind]
    cases b <;> rfl
  · exact ⟨k, es, o, e, hk, hes, .inl he, by simp only [discardFrame, hres, Res.bind]⟩

theorem unpackFrame_spec (C : Codec) (s : State) :
    ∃ (y : List Byte) (c : Word16) (w : Written),
      (∃ p, Validated p ∧ unpackFrame C 5 s = .ok p { s with rxPkt := y, crcReg := c, written := w }) ∨
        ∃ e, (e.code = .decodeFailed ∨ e.code = .wrongDecLen ∨ e.code = .crcMismatch) ∧
          unpackFrame C 5 s = .raise e { s with rxPkt := y, crcReg := c, written := w } := by
  unfold unpackFrame
  cases hdec : C.dec s.rxFrame with
  | none => exact ⟨s.rxPkt, s.crcReg, s.written, .inr ⟨{ code := .decodeFailed, a := 0, b := 0 }, .inl rfl, rfl⟩⟩
  | some d =>
    by_cases h0 : d.length = 0
    · exact ⟨s.rxPkt, s.crcReg, s.written, .inr ⟨{ code := .decodeFailed, a := 0, b := 0 }, .inl rfl, by simp only [h0, if_true]⟩⟩
    by_cases h5 : d.length = 5
    · obtain ⟨c, w, hc⟩ := checkCrc_spec { s with rxPkt := d, written := { s.written with rxPkt := true } } d h5 rfl
      refine ⟨d, c, w, ?_⟩
      rcases hc with ⟨hv, hc⟩ | ⟨e, he, hc⟩
      · exact .inl ⟨d, hv, by simp only [if_neg h0, if_pos h5, hc]⟩
      · exact .inr ⟨e, .inr (.inr he), by simp only [if_neg h0, if_pos h5, hc]⟩
    · exact ⟨s.rxPkt, s.crcReg, s.written, .inr ⟨{ code := .wrongDecLen, a := sat16 d.length, b := sat16 5 }, .inr (.inl rfl),
        by simp only [if_neg h0, if_neg h5]⟩⟩

theorem receivePacket_spec (C : Codec) (s : State) :
    ∃ t, Received s t ∧
      ((∃ p, Validated p ∧ receivePacket C 5 s = .ok p t) ∨ ∃ e, e.code ∈ receiveCodes ∧ receivePacket C 5 s = .raise e t) := by
  obtain ⟨r, o, h, -⟩ := linkRead_spec 7 s
  have hr7 : Event.ReadOf 7 (.rx 7 (r.within 7)) := ⟨r, rfl⟩
  cases hr : r.within 7 with
  | err =>
    rw [hr] at h hr7
    obtain ⟨heq, -⟩ := receivePacket_eq C s _ _ [] o h rfl
    exact ⟨_, ⟨s.resyncCount, s.rxFrame, s.rxPkt, s.crcReg, s.written, o, [.rx 7 .err], .inl rfl, by simpa using .inl hr7, rfl⟩,
      .inr ⟨_, by simp [receiveCodes], heq rfl⟩⟩
  | ok bytes =>
    rw [hr] at h hr7
    obtain ⟨-, heq⟩ := receivePacket_eq C s _ _ bytes o h rfl
    obtain ⟨hlen, hdisc, hunp⟩ := heq rfl
    by_cases h7 : bytes.length = 7
    case neg =>
      exact ⟨_, ⟨s.resyncCount, bytes, s.rxPkt, s.crcReg, _, o, [.rx 7 (.ok bytes)], .inl rfl, by simpa using .inl hr7, rfl⟩,
        .inr ⟨_, by simp [receiveCodes], hlen h7⟩⟩
    by_cases h0 : bytes[6]? = some 0x00
    · obtain ⟨y, c, w, hres⟩ := unpackFrame_spec C { s with
        rxFrame := bytes, written := { s.written with rxFrame := true }, oracle := o, trace := s.trace ++ [.rx 7 (.ok bytes)] }
      rw [← hunp h7 h0] at hres
      refine ⟨_, ⟨s.resyncCount, bytes, y, c, w, o, [.rx 7 (.ok bytes)], .inl rfl, by simpa using .inl hr7, rfl⟩, ?_⟩
      rcases hres with hres | ⟨e, he, hres⟩
      · exact .inl hres
      · refine .inr ⟨e, ?_, hres⟩
        rcases he with he | he | he <;> simp [receiveCodes, he]
    · obtain ⟨k, es, o', e, hk, hes, he, hres⟩ := discardFrame_spec { s with
        rxFrame := bytes, written := { s.written with rxFrame := true }, oracle := o, trace := s.trace ++ [.rx 7 (.ok bytes)] }
      rw [← hdisc h7 h0] at hres
      refine ⟨_, ⟨k, bytes, s.rxPkt, s.crcReg, { s.written with rxFrame := true }, o', .rx 7 (.ok bytes) :: es, .inr hk, ?_, rfl⟩, .inr ⟨e, ?_, ?_⟩⟩
      · simpa using ⟨.inl hr7, fun e he => .inr (hes e he)⟩
      · rcases he with he | he | he <;> simp [receiveCodes, he]
      · simpa only [List.append_assoc, List.singleton_append] using hres

/-- ReceivePacket of a frame that passes every check (R162). -/
theorem receivePacket_frame (C : Codec) (s : State) (f : List Byte) (kind : Byte) (value : Word16) (o : Oracle)
    (hr : s.oracle.takeRead 7 = (.ok f, o)) (hlen : f.length = 7) (hlast : f[6]? = some 0x00)
    (hdec : C.dec f = some (rspPacket kind value)) :
    receivePacket C 5 s = .ok (rspPacket kind value) { s.holding f kind value with
      oracle := o, trace := s.trace ++ [.rx 7 (.ok f)]
      written := { s.written with rxFrame := true, rxPkt := true, crcReg := true } } := by
  obtain ⟨-, h⟩ := receivePacket_eq C s _ _ f o hr rfl
  have hc : crc16 (rspPacket kind value) 3 = crc16 [kind, hi value, lo value] 3 := rfl
  have hf : crcFieldOf 5 (rspPacket kind value) = crc16 [kind, hi value, lo value] 3 := be16_hi_lo _
  rw [(h rfl).2.2 hlen hlast]
  simp only [unpackFrame, hdec, rspPacket_length, checkCrc, crcUnit, hf]
  rw [if_neg (by decide), if_pos trivial, if_pos hc.symm]
  rfl

/-! ### The exchange -/

/-- Awaiting a response comes to judging a validated one, or to an error of ReceivePacket (R61, R168). -/
theorem awaitResponse_spec (C : Codec) (x : Exchange) (s : State) :
    ∃ t, Received { s with point := .awaiting x } t ∧
      ((∃ kind value, awaitResponse C x s = judge x kind value t) ∨
        ∃ e, e.code ∈ receiveCodes ∧ awaitResponse C x s = .raise e t) := by
  obtain ⟨t, ht, hres⟩ := receivePacket_spec C { s with point := .awaiting x }
  refine ⟨t, ht, ?_⟩
  rcases hres with ⟨p, ⟨kind, value, rfl⟩, hres⟩ | ⟨e, he, hres⟩
  · exact .inl ⟨kind, value, by simp [awaitResponse, hres, Res.bind]⟩
  · exact .inr ⟨e, he, by simp [awaitResponse, hres, Res.bind]⟩

/-- An exchange ends in its send, or goes on to await its response (R61). -/
theorem exchange_spec (C : Codec) (x : Exchange) (s : State) :
    ∃ t, Sent C s.txPkt s t ∧
      (exchange C x s = awaitResponse C x t ∨
        ∃ e, (e.code = .writeIo ∨ e.code = .writeCount) ∧ exchange C x s = .raise e t) := by
  obtain ⟨t, ht, hres⟩ := sendCommand_spec C s.txPkt s
  refine ⟨t, ht, ?_⟩
  rcases hres with hres | ⟨e, he, hres⟩
  · exact .inl (by simp [exchange, hres, Res.bind])
  · exact .inr ⟨e, he, by simp [exchange, hres, Res.bind]⟩

/-! ### Bring-up -/

/-- The events of closing a session that is open (R131). -/
def closing (s : State) : List Event := if s.link = .opened then [.close] else []

@[simp] theorem closeIfOpen_closed (s : State) :
    (closeIfOpen s).closed = { s with
      link := .closed, regime := .unconfigured, sync := .unsynced, mode := .idle, trace := s.trace ++ closing s } := by
  unfold closeIfOpen closing
  split <;> simp [linkClose, State.record, State.closed]

theorem openLink_spec (s : State) :
    ∃ o : Oracle,
      (∃ e, openLink s = .raise { code := OpenError.code e, a := 0, b := 0 } { s with
        link := .closed, regime := .unconfigured, sync := .unsynced, mode := .idle, oracle := o
        trace := s.trace ++ closing s ++ [.linkOpen (.err e)] }) ∨
      openLink s = .raise { code := .linkAttr, a := 0, b := 0 } { s with
        link := .opened, regime := .unconfigured, sync := .unsynced, mode := .idle, oracle := o
        trace := s.trace ++ closing s ++ [.linkOpen .ok, .config 0 0 .err] } ∨
      openLink s = .ok () { s with
        link := .opened, regime := .drain, sync := .seekingHeader, mode := .idle, oracle := o
        trace := s.trace ++ closing s ++ [.linkOpen .ok, .config 0 0 .ok] } := by
  obtain ⟨r, o, ho, h⟩ := linkOpen_spec (closeIfOpen s).closed
  cases r with
  | err e => exact ⟨o, .inl ⟨e, by simp only [openLink, h]; simp⟩⟩
  | ok =>
    obtain ⟨c, o', hc, h'⟩ := linkConfigure_spec 0 0 { (closeIfOpen s).closed with
      link := .opened, oracle := o, trace := (closeIfOpen s).closed.trace ++ [.linkOpen .ok] }
    refine ⟨o', .inr ?_⟩
    cases c with
    | err => exact .inl (by simp only [openLink, h, h']; simp)
    | ok => exact .inr (by simp only [openLink, h, h']; simp)

/-- What the probe may leave (R133). -/
def Probed (C : Codec) (pkt : List Byte) (s t : State) : Prop :=
  ∃ (n : Nat) (x : List Byte) (w : Bool) (o : Oracle) (es : List Event), n ≤ 100 ∧
    ((x = C.enc pkt ∧ w = true) ∨ (x = s.txFrame ∧ w = s.written.txFrame)) ∧
    (∀ e ∈ es, e.SendOf (C.enc pkt) ∨ e.ReadOf 1) ∧
    t = { s with syncCount := n, txFrame := x, written := { s.written with txFrame := w }, oracle := o, trace := s.trace ++ es }

/-- The codes the probe raises (R133). -/
def probeCodes : List ErrorCode := [.writeIo, .writeCount, .readIo, .syncExhausted]

theorem Probed.trans {C : Codec} {pkt : List Byte} {s t u : State} (h : Probed C pkt s t) (h' : Probed C pkt t u) : Probed C pkt s u := by
  obtain ⟨n, x, w, o, es, hn, hx, hes, rfl⟩ := h
  obtain ⟨n', x', w', o', es', hn', hx', hes', rfl⟩ := h'
  refine ⟨n', x', w', o', es ++ es', hn', ?_, ?_, by simp⟩
  · rcases hx' with hx' | ⟨rfl, rfl⟩
    · exact .inl hx'
    · exact hx
  · intro e he
    rcases List.mem_append.1 he with he | he
    · exact hes e he
    · exact hes' e he

theorem probeLoop_spec (C : Codec) (pkt : List Byte) (n : Nat) (s : State) (hn : s.syncCount + n ≤ 100) :
    ∃ t, Probed C pkt s t ∧
      (probeLoop C pkt n s = .ok () t ∨ ∃ e, e.code ∈ probeCodes ∧ probeLoop C pkt n s = .raise e t) := by
  induction n generalizing s with
  | zero =>
    exact ⟨s, ⟨s.syncCount, s.txFrame, s.written.txFrame, s.oracle, [], by omega, .inr ⟨rfl, rfl⟩, by simp, by simp⟩,
      .inr ⟨_, by simp [probeCodes], rfl⟩⟩
  | succ n ih =>
    obtain ⟨t, ⟨wr, o, rfl⟩, hsend⟩ := sendCommand_spec C pkt s
    have hw : Event.SendOf (C.enc pkt) (.tx (C.enc pkt) (wr.within (C.enc pkt).length)) := ⟨wr, rfl⟩
    rcases hsend with hsend | ⟨e, he, hsend⟩
    case inr =>
      refine ⟨_, ⟨s.syncCount, C.enc pkt, true, o, [.tx (C.enc pkt) (wr.within (C.enc pkt).length)], by omega, .inl ⟨rfl, rfl⟩, ?_, rfl⟩,
        .inr ⟨e, ?_, ?_⟩⟩
      · simpa using .inl hw
      · rcases he with he | he <;> simp [probeCodes, he]
      · simp [probeLoop, hsend, Res.bind]
    case inl =>
      obtain ⟨r, o', -, hread⟩ := linkRead_spec 1 { s with
        syncCount := s.syncCount + 1, txFrame := C.enc pkt, written := { s.written with txFrame := true }, oracle := o
        trace := s.trace ++ [.tx (C.enc pkt) (wr.within (C.enc pkt).length)] }
      have hr : Event.ReadOf 1 (.rx 1 (r.within 1)) := ⟨r, rfl⟩
      have hone : Probed C pkt s { s with
          syncCount := s.syncCount + 1, txFrame := C.enc pkt, written := { s.written with txFrame := true }, oracle := o'
          trace := s.trace ++ [.tx (C.enc pkt) (wr.within (C.enc pkt).length)] ++ [.rx 1 (r.within 1)] } := by
        refine ⟨s.syncCount + 1, C.enc pkt, true, o',
          [.tx (C.enc pkt) (wr.within (C.enc pkt).length), .rx 1 (r.within 1)], by omega, .inl ⟨rfl, rfl⟩, ?_, by simp⟩
        simpa using ⟨.inl hw, .inr hr⟩
      cases hres : r.within 1 with
      | err =>
        rw [hres] at hread hone
        exact ⟨_, hone, .inr ⟨{ code := .readIo, a := 0, b := 1 }, by simp [probeCodes],
          by simp only [probeLoop, hsend, Res.bind, hread]⟩⟩
      | ok bytes =>
        rw [hres] at hread hone
        by_cases h1 : bytes.length = 1
        · exact ⟨_, hone, .inl (by simp only [probeLoop, hsend, Res.bind, hread, h1, if_true])⟩
        · obtain ⟨u, hu, hloop⟩ := ih { s with
            syncCount := s.syncCount + 1, txFrame := C.enc pkt, written := { s.written with txFrame := true }, oracle := o'
            trace := s.trace ++ [.tx (C.enc pkt) (wr.within (C.enc pkt).length)] ++ [.rx 1 (.ok bytes)] } (by simp; omega)
          refine ⟨u, hone.trans hu, ?_⟩
          simpa only [probeLoop, hsend, Res.bind, hread, h1, if_false] using hloop

theorem probe_spec (C : Codec) (pkt : List Byte) (s : State) :
    ∃ t, Probed C pkt s t ∧ (probe C pkt s = .ok () t ∨ ∃ e, e.code ∈ probeCodes ∧ probe C pkt s = .raise e t) := by
  obtain ⟨t, ⟨n, x, w, o, es, hn, hx, hes, rfl⟩, h⟩ := probeLoop_spec C pkt Config.syncAttempts { s with syncCount := 0 } (by simp)
  exact ⟨_, ⟨n, x, w, o, es, hn, hx, hes, rfl⟩, h⟩

theorem drainLoop_spec (n : Nat) (s : State) :
    ∃ (o : Oracle) (es : List Event), (∀ e ∈ es, e.ReadOf 1) ∧
      (drainLoop n s = .ok () { s with oracle := o, trace := s.trace ++ es } ∨
        drainLoop n s = .running { s with oracle := o, trace := s.trace ++ es } ∨
        ∃ e, e.code = .readIo ∧ drainLoop n s = .raise e { s with oracle := o, trace := s.trace ++ es }) := by
  induction n generalizing s with
  | zero => exact ⟨s.oracle, [], by simp, .inr (.inl (by simp [drainLoop]))⟩
  | succ n ih =>
    obtain ⟨r, o, -, h⟩ := linkRead_spec 1 s
    have hr1 : Event.ReadOf 1 (.rx 1 (r.within 1)) := ⟨r, rfl⟩
    cases hr : r.within 1 with
    | err =>
      rw [hr] at h hr1
      exact ⟨o, [.rx 1 .err], by simpa using hr1, .inr (.inr ⟨_, rfl, by simp only [drainLoop, h]; rfl⟩)⟩
    | ok bytes =>
      rw [hr] at h hr1
      by_cases h0 : bytes.length = 0
      · exact ⟨o, [.rx 1 (.ok bytes)], by simpa using hr1, .inl (by simp only [drainLoop, h, h0, if_true])⟩
      · obtain ⟨o', es, hes, hloop⟩ := ih { s with oracle := o, trace := s.trace ++ [.rx 1 (.ok bytes)] }
        refine ⟨o', .rx 1 (.ok bytes) :: es, by simpa using ⟨hr1, hes⟩, ?_⟩
        simpa only [drainLoop, h, h0, if_false, List.append_assoc, List.singleton_append] using hloop

/-- Steps 4 to 6 end where the blocking regime cannot be configured, or go on to the echo's exchange (R138 to R140). -/
theorem echo_spec (C : Codec) (s : State) :
    ∃ o : Oracle,
      echo C s = .raise { code := .linkAttr, a := 0, b := 0 } { s with
        oracle := o, trace := s.trace ++ [.sleep 20, .config 7 10 .err] } ∨
      echo C s = exchange C .echo { s with
        regime := .blocking, sync := .awaitingEcho, oracle := o, trace := s.trace ++ [.sleep 20, .config 7 10 .ok] } := by
  obtain ⟨c, o, -, h⟩ := linkConfigure_spec 7 10 (linkSleep 20 s)
  cases c with
  | err => exact ⟨o, .inl (by simp only [echo, h]; simp [linkSleep, State.record])⟩
  | ok => exact ⟨o, .inr (by simp only [echo, h]; simp [linkSleep, State.record])⟩

/-! ### Outcomes -/

theorem complete_ok (op : Byte) (v : Option Word16) (s : State) :
    complete op (.ok v s) = ({ s with result := v.getD s.result } : State).ended op Status.success 0 0 := rfl

theorem raiseEffect_result (op : Byte) (e : Raise) (s : State) : (raiseEffect op e s).result = s.result := by
  unfold raiseEffect
  split <;> try rfl
  split <;> rfl

theorem complete_raise (op : Byte) (e : Raise) (s : State) :
    complete op (.raise e s) = (raiseEffect op e s).ended op (Status.ofError e.code) e.a e.b := by
  simp only [complete, finish, State.ended, raiseEffect_result]

/-- Every code has a class of error (R212). -/
theorem ErrorCode.cls_ne_none (c : ErrorCode) : c.cls ≠ .none := by cases c <;> decide

/-- The state effect of an error (R216 to R218). -/
theorem raiseEffect_spec (op : Byte) (e : Raise) (s : State) :
    (raiseEffect op e s = s.desync ∧ (e.code.cls = .linkFatal ∨ e.code.cls = .protocolFatal ∨ (e.code.cls = .soft ∧ op = 0x01))) ∨
      (raiseEffect op e s = s ∧ (e.code.cls = .usage ∨ (e.code.cls = .soft ∧ op ≠ 0x01))) := by
  unfold raiseEffect
  cases h : e.code.cls
  case none => exact absurd h (e.code.cls_ne_none)
  case linkFatal => exact .inl ⟨rfl, .inl rfl⟩
  case protocolFatal => exact .inl ⟨rfl, .inr (.inl rfl)⟩
  case soft =>
    by_cases ho : op = 0x01
    · exact .inl ⟨if_pos ho, .inr (.inr ⟨rfl, ho⟩)⟩
    · exact .inr ⟨if_neg ho, .inr ⟨rfl, ho⟩⟩
  case usage => exact .inr ⟨rfl, .inl rfl⟩

/-- Judging a response: a fatal error that changes nothing else yet, or the awaiting operation's own success (R83, R140, R185 to R187). -/
theorem judge_spec (x : Exchange) (kind : Byte) (value : Word16) (s : State) :
    (∃ e, judge x kind value s = .raise e s ∧ e.code.cls = .protocolFatal) ∨
      (x = .echo ∧ judge x kind value s = .ok none { s with sync := .synced }) ∨
      (x = .rawMode ∧ judge x kind value s = .ok none { s with rawFlag := true, mode := .rawConfigured }) ∨
      (x = .triggerMode ∧ judge x kind value s = .ok none { s with mode := .triggerConfigured }) ∨
      (x = .reading ∧ judge x kind value s = .ok (some value) s) := by
  cases x <;> unfold judge <;> dsimp only <;> split
  · exact .inr (.inl ⟨rfl, rfl⟩)
  · exact .inl ⟨_, rfl, rfl⟩
  · exact .inr (.inr (.inl ⟨rfl, rfl⟩))
  · exact .inl ⟨_, rfl, rfl⟩
  · exact .inr (.inr (.inr (.inl ⟨rfl, rfl⟩)))
  · exact .inl ⟨_, rfl, rfl⟩
  · exact .inr (.inr (.inr (.inr ⟨rfl, rfl⟩)))
  · exact .inl ⟨_, rfl, rfl⟩

/-- Every response row is one shared operation, on its own kind byte (R184). -/
theorem exec_response (i : Instr) (kind : Byte) (value : Word16) (s : State) (h : i.response = some (kind, value)) :
    exec i s = .next (respond kind value s) := by
  cases i <;> simp [Instr.response] at h <;> obtain ⟨rfl, rfl⟩ := h <;> rfl

end Sys2Proof.Machine
end

