-- ==== Sys2Proof/Laws/PerInstr.lean ====
section
/-! SUPPORT. What holds of every instruction as syntax, one lemma for each constructor (30_encoding.md R70 to R72, R80). -/

namespace Sys2Proof.Laws.TableRow

open Sys2Proof.Machine

/-- The bytes of a word of each format (R71, R72, R80). -/
def width : Format → Nat
  | .cmd => 7
  | .rsp => 5
  | .hreq => 5

/-- An instruction's word has its format's length, and starts with its request code, or with its kind byte and value. -/
def Statement (i : Instr) : Prop :=
  (encode i).length = width i.format ∧
  (∀ op, i.requestCode = some op → i.format = .hreq ∧ (encode i).head? = some op) ∧
  (∀ kind value, i.response = some (kind, value) → i.format = .rsp ∧ (encode i).take 3 = [kind, hi value, lo value])

/-- A command row. -/
theorem of_command (i : Instr) (hf : i.format = .cmd) (hl : (encode i).length = 7) (hq : i.requestCode = none) (hr : i.response = none) :
    Statement i :=
  ⟨by rw [hl, hf]; rfl, by simp [hq], by simp [hr]⟩

/-- A response row. -/
theorem of_response (i : Instr) (kind : Byte) (value crc : Word16) (hf : i.format = .rsp) (he : encode i = encodeRsp kind value crc)
    (hq : i.requestCode = none) (hr : i.response = some (kind, value)) : Statement i := by
  refine ⟨by rw [he, hf]; rfl, by simp [hq], fun k v h => ?_⟩
  rw [hr] at h
  cases h
  exact ⟨hf, by rw [he]; rfl⟩

/-- A request row. -/
theorem of_request (i : Instr) (op : Byte) (a b : Word16) (hf : i.format = .hreq) (he : encode i = encodeHreq op a b)
    (hq : i.requestCode = some op) (hr : i.response = none) : Statement i := by
  refine ⟨by rw [he, hf]; rfl, fun o h => ?_, by simp [hr]⟩
  rw [hq] at h
  cases h
  exact ⟨hf, by rw [he]; rfl⟩

theorem cmdSync (crc : Word16) : Statement (.cmdSync crc) := of_command _ rfl rfl rfl rfl
theorem cmdRaw (crc : Word16) : Statement (.cmdRaw crc) := of_command _ rfl rfl rfl rfl
theorem cmdTrigger (low high crc : Word16) : Statement (.cmdTrigger low high crc) := of_command _ rfl rfl rfl rfl
theorem rspSensorValue (value crc : Word16) : Statement (.rspSensorValue value crc) := of_response _ _ _ _ rfl rfl rfl rfl
theorem rspSyncOk (value crc : Word16) : Statement (.rspSyncOk value crc) := of_response _ _ _ _ rfl rfl rfl rfl
theorem rspRawAck (value crc : Word16) : Statement (.rspRawAck value crc) := of_response _ _ _ _ rfl rfl rfl rfl
theorem rspTriggerAck (value crc : Word16) : Statement (.rspTriggerAck value crc) := of_response _ _ _ _ rfl rfl rfl rfl
theorem rspUnknownCommand (value crc : Word16) : Statement (.rspUnknownCommand value crc) := of_response _ _ _ _ rfl rfl rfl rfl
theorem rspCrcMismatch (value crc : Word16) : Statement (.rspCrcMismatch value crc) := of_response _ _ _ _ rfl rfl rfl rfl
theorem rspWrongSize (value crc : Word16) : Statement (.rspWrongSize value crc) := of_response _ _ _ _ rfl rfl rfl rfl
theorem rspUndefinedKind (kind : Byte) (value crc : Word16) : Statement (.rspUndefinedKind kind value crc) := of_response _ _ _ _ rfl rfl rfl rfl
theorem openAndSync (a b : Word16) : Statement (.openAndSync a b) := of_request _ _ _ _ rfl rfl rfl rfl
theorem setRawMode (a b : Word16) : Statement (.setRawMode a b) := of_request _ _ _ _ rfl rfl rfl rfl
theorem setTriggerMode (a b : Word16) : Statement (.setTriggerMode a b) := of_request _ _ _ _ rfl rfl rfl rfl
theorem readSensorValue (a b : Word16) : Statement (.readSensorValue a b) := of_request _ _ _ _ rfl rfl rfl rfl
theorem crc16 (a b : Word16) : Statement (.crc16 a b) := of_request _ _ _ _ rfl rfl rfl rfl
theorem setDebug (a b : Word16) : Statement (.setDebug a b) := of_request _ _ _ _ rfl rfl rfl rfl
theorem close (a b : Word16) : Statement (.close a b) := of_request _ _ _ _ rfl rfl rfl rfl
theorem reserved00 (a b : Word16) : Statement (.reserved00 a b) := of_request _ _ _ _ rfl rfl rfl rfl
theorem reserved08 (low : BitVec 3) (a b : Word16) : Statement (.reserved08 low a b) := of_request _ _ _ _ rfl rfl rfl rfl
theorem reserved10 (low : BitVec 4) (a b : Word16) : Statement (.reserved10 low a b) := of_request _ _ _ _ rfl rfl rfl rfl
theorem reserved20 (low : BitVec 5) (a b : Word16) : Statement (.reserved20 low a b) := of_request _ _ _ _ rfl rfl rfl rfl
theorem reserved40 (low : BitVec 6) (a b : Word16) : Statement (.reserved40 low a b) := of_request _ _ _ _ rfl rfl rfl rfl
theorem reserved80 (low : BitVec 7) (a b : Word16) : Statement (.reserved80 low a b) := of_request _ _ _ _ rfl rfl rfl rfl

end Sys2Proof.Laws.TableRow
end

