-- ==== Sys2Proof/Laws/Requests.lean ====
section
/-! SUPPORT. What each host operation's body can come to, said once for each: the state it leaves, the events it appends and the codes it
raises. Proofs about requests and steps cite these and unfold no body. -/

namespace Sys2Proof.Machine

/-- A stretch of an operation that writes only the buffers, the CRC register, the resync counter, the oracle and the point, and appends
events that all satisfy `P`. `pkt` and `frame` are the transmit buffers it leaves. -/
def Ran (P : Event → Prop) (pkt frame : List Byte) (s t : State) : Prop :=
  ∃ (k : Nat) (x y : List Byte) (c : Word16) (w : Written) (o : Oracle) (p : Point) (es : List Event),
    (k = s.resyncCount ∨ k ≤ 100) ∧ (∀ e ∈ es, P e) ∧
    t = { s with
      txPkt := pkt, txFrame := frame, resyncCount := k, rxFrame := x, rxPkt := y, crcReg := c, written := w, oracle := o, point := p
      trace := s.trace ++ es }

theorem Ran.trans {P : Event → Prop} {pkt frame pkt' frame' : List Byte} {s t u : State} (h : Ran P pkt frame s t)
    (h' : Ran P pkt' frame' t u) : Ran P pkt' frame' s u := by
  obtain ⟨k, x, y, c, w, o, p, es, hk, hes, rfl⟩ := h
  obtain ⟨k', x', y', c', w', o', p', es', hk', hes', rfl⟩ := h'
  refine ⟨k', x', y', c', w', o', p', es ++ es', ?_, ?_, by simp⟩
  · rcases hk' with rfl | hk'
    · exact hk
    · exact .inr hk'
  · intro e he
    rcases List.mem_append.1 he with he | he
    · exact hes e he
    · exact hes' e he

theorem Ran.mono {P Q : Event → Prop} {pkt frame : List Byte} {s t : State} (h : Ran P pkt frame s t) (hPQ : ∀ e, P e → Q e) :
    Ran Q pkt frame s t := by
  obtain ⟨k, x, y, c, w, o, p, es, hk, hes, rfl⟩ := h
  exact ⟨k, x, y, c, w, o, p, es, hk, fun e he => hPQ e (hes e he), rfl⟩

/-- What a `Ran` stretch keeps. -/
theorem Ran.keeps {P : Event → Prop} {pkt frame : List Byte} {s t : State} (h : Ran P pkt frame s t) :
    t.link = s.link ∧ t.regime = s.regime ∧ t.sync = s.sync ∧ t.mode = s.mode ∧ t.rawFlag = s.rawFlag ∧ t.debug = s.debug ∧
      t.syncCount = s.syncCount ∧ t.busy = s.busy ∧ t.result = s.result ∧ t.requests = s.requests ∧ t.resets = s.resets := by
  obtain ⟨k, x, y, c, w, o, p, es, -, -, rfl⟩ := h
  exact ⟨rfl, rfl, rfl, rfl, rfl, rfl, rfl, rfl, rfl, rfl, rfl⟩

/-- What a `Ran` stretch does to the trace and the transmit buffers. -/
theorem Ran.trace {P : Event → Prop} {pkt frame : List Byte} {s t : State} (h : Ran P pkt frame s t) :
    ∃ es, t.trace = s.trace ++ es ∧ (∀ e ∈ es, P e) ∧ t.txPkt = pkt ∧ t.txFrame = frame := by
  obtain ⟨k, x, y, c, w, o, p, es, -, hes, rfl⟩ := h
  exact ⟨es, rfl, hes, rfl, rfl⟩

/-- An event of reading a response: the frame's read or a resync read. -/
def Event.Reading (e : Event) : Prop := e.ReadOf 7 ∨ e.ReadOf 1

/-- An event of an exchange that sends this frame. -/
def Event.Exchanging (frame : List Byte) (e : Event) : Prop := e.SendOf frame ∨ e.Reading

/-- An event of bring-up after the link was opened and the drain regime configured. -/
def Event.Syncing (frame : List Byte) (e : Event) : Prop :=
  e.Exchanging frame ∨ e = .sleep 20 ∨ ∃ r, e = .config 7 10 r

theorem awaitResponse_ran (C : Codec) (x : Exchange) (s : State) :
    ∃ t, Ran Event.Reading s.txPkt s.txFrame s t ∧
      ((∃ kind value, awaitResponse C x s = judge x kind value t) ∨
        ∃ e, e.code ∈ receiveCodes ∧ awaitResponse C x s = .raise e t) := by
  obtain ⟨t, ⟨k, x', y, c, w, o, es, hk, hes, rfl⟩, h⟩ := awaitResponse_spec C x s
  exact ⟨_, ⟨k, x', y, c, w, o, _, es, hk, hes, rfl⟩, h⟩

theorem exchange_ran (C : Codec) (x : Exchange) (s : State) :
    ∃ t, Ran (Event.Exchanging (C.enc s.txPkt)) s.txPkt (C.enc s.txPkt) s t ∧
      ((∃ kind value, exchange C x s = judge x kind value t) ∨
        ∃ e, (e.code ∈ receiveCodes ∨ e.code = .writeIo ∨ e.code = .writeCount) ∧ exchange C x s = .raise e t) := by
  obtain ⟨t, ⟨r, o, rfl⟩, h⟩ := exchange_spec C x s
  have hsent : Ran (Event.Exchanging (C.enc s.txPkt)) s.txPkt (C.enc s.txPkt) s { s with
      txFrame := C.enc s.txPkt, written := { s.written with txFrame := true }, oracle := o
      trace := s.trace ++ [.tx (C.enc s.txPkt) (r.within (C.enc s.txPkt).length)] } :=
    ⟨s.resyncCount, s.rxFrame, s.rxPkt, s.crcReg, { s.written with txFrame := true }, o, s.point,
      [.tx (C.enc s.txPkt) (r.within (C.enc s.txPkt).length)], .inl rfl, by simpa using .inl ⟨r, rfl⟩, rfl⟩
  rcases h with h | ⟨e, he, h⟩
  · obtain ⟨u, hu, hres⟩ := awaitResponse_ran C x { s with
      txFrame := C.enc s.txPkt, written := { s.written with txFrame := true }, oracle := o
      trace := s.trace ++ [.tx (C.enc s.txPkt) (r.within (C.enc s.txPkt).length)] }
    refine ⟨u, hsent.trans (hu.mono fun e he => .inr he), ?_⟩
    rcases hres with ⟨kind, value, hres⟩ | ⟨e, he, hres⟩
    · exact .inl ⟨kind, value, h.trans hres⟩
    · exact .inr ⟨e, .inl he, h.trans hres⟩
  · exact ⟨_, hsent, .inr ⟨e, .inr he, h⟩⟩

/-- Building a command packet. -/
theorem buildCmd_ran (P : Event → Prop) (opc : Byte) (a b : Word16) (s : State) :
    Ran P (cmdPacket opc a b) s.txFrame s (buildCmd opc a b s) :=
  ⟨s.resyncCount, s.rxFrame, s.rxPkt, crcRun 0xFFFF (cmdBody opc a b), { s.written with crcReg := true, txPkt := true }, s.oracle,
    s.point, [], .inl rfl, by simp, by simp⟩

/-- The codes of a mode command's exchange (R214), but for the kind mismatch. -/
def exchangeCodes : List ErrorCode := .writeIo :: .writeCount :: receiveCodes

theorem setRawModeOp_spec (C : Codec) (s : State) :
    (s.sync ≠ .synced ∧ setRawModeOp C s = sequenceError s) ∨
      (s.sync = .synced ∧ ∃ t, Ran (Event.Exchanging (C.enc (cmdPacket 0x10 0 0))) (cmdPacket 0x10 0 0) (C.enc (cmdPacket 0x10 0 0)) s t ∧
        (setRawModeOp C s = .ok none { t with rawFlag := true, mode := .rawConfigured } ∨
          ∃ e, (e.code ∈ exchangeCodes ∨ e.code = .rawModeFailed) ∧ setRawModeOp C s = .raise e t)) := by
  unfold setRawModeOp
  by_cases hs : s.sync = .synced
  case neg => exact .inl ⟨hs, if_neg hs⟩
  refine .inr ⟨hs, ?_⟩
  rw [if_pos hs]
  obtain ⟨t, ht, hres⟩ := exchange_ran C .rawMode (buildRaw s)
  refine ⟨t, (buildCmd_ran _ 0x10 0 0 s).trans ht, ?_⟩
  rcases hres with ⟨kind, value, hres⟩ | ⟨e, he, hres⟩
  · by_cases hk : kind = Config.kindRawAck
    · exact .inl (by rw [hres]; simp only [judge, if_pos hk])
    · exact .inr ⟨{ code := .rawModeFailed, a := zext16 kind, b := 0 }, .inr rfl, by rw [hres]; simp only [judge, if_neg hk]⟩
  · refine .inr ⟨e, .inl ?_, hres⟩
    rcases he with he | he | he <;> simp [exchangeCodes, he]

theorem setTriggerModeOp_spec (C : Codec) (low high : Word16) (s : State) :
    (s.sync ≠ .synced ∧ setTriggerModeOp C low high s = sequenceError s) ∨
      (s.sync = .synced ∧ high.toInt < low.toInt ∧
        setTriggerModeOp C low high s = .raise { code := .badThresholds, a := low, b := high } s) ∨
      (s.sync = .synced ∧ low.toInt ≤ high.toInt ∧
        ∃ t, Ran (Event.Exchanging (C.enc (cmdPacket 0x20 low high))) (cmdPacket 0x20 low high) (C.enc (cmdPacket 0x20 low high)) s t ∧
          (setTriggerModeOp C low high s = .ok none { t with mode := .triggerConfigured } ∨
            ∃ e, (e.code ∈ exchangeCodes ∨ e.code = .triggerModeFailed) ∧ setTriggerModeOp C low high s = .raise e t)) := by
  unfold setTriggerModeOp
  by_cases hs : s.sync = .synced
  case neg => exact .inl ⟨hs, if_neg hs⟩
  rw [if_pos hs]
  by_cases hl : high.toInt < low.toInt
  · exact .inr (.inl ⟨hs, hl, by simp [signedGt, sext16, hl]⟩)
  refine .inr (.inr ⟨hs, by omega, ?_⟩)
  have hg : signedGt low high = false := decide_eq_false hl
  obtain ⟨t, ht, hres⟩ := exchange_ran C .triggerMode (buildTrigger low high s)
  refine ⟨t, (buildCmd_ran _ 0x20 low high s).trans ht, ?_⟩
  simp only [hg]
  rcases hres with ⟨kind, value, hres⟩ | ⟨e, he, hres⟩
  · by_cases hk : kind = Config.kindTriggerAck
    · exact .inl (by rw [hres]; simp only [judge, if_pos hk]; rfl)
    · exact .inr ⟨{ code := .triggerModeFailed, a := zext16 kind, b := 0 }, .inr rfl, by rw [hres]; simp only [judge, if_neg hk]; rfl⟩
  · refine .inr ⟨e, .inl ?_, hres⟩
    rcases he with he | he | he <;> simp [exchangeCodes, he]

theorem readSensorValueOp_spec (C : Codec) (s : State) :
    ((s.sync ≠ .synced ∨ s.mode = .idle) ∧ readSensorValueOp C s = sequenceError s) ∨
      (s.sync = .synced ∧ s.mode ≠ .idle ∧ ∃ t, Ran Event.Reading s.txPkt s.txFrame s t ∧
        ((∃ value, readSensorValueOp C s = .ok (some value) t) ∨
          ∃ e, (e.code ∈ receiveCodes ∨ e.code = .notSensorReading) ∧ readSensorValueOp C s = .raise e t)) := by
  unfold readSensorValueOp
  by_cases hs : s.sync = .synced ∧ s.mode ≠ .idle
  case neg =>
    refine .inl ⟨?_, if_neg hs⟩
    by_cases h1 : s.sync = .synced
    · exact .inr (by by_contra h2; exact hs ⟨h1, h2⟩)
    · exact .inl h1
  refine .inr ⟨hs.1, hs.2, ?_⟩
  rw [if_pos hs]
  obtain ⟨t, ht, hres⟩ := awaitResponse_ran C .reading s
  refine ⟨t, ht, ?_⟩
  rcases hres with ⟨kind, value, hres⟩ | ⟨e, he, hres⟩
  · by_cases hk : kind = Config.kindSensorValue
    · exact .inl ⟨value, by rw [hres]; simp only [judge, if_pos hk]⟩
    · exact .inr ⟨{ code := .notSensorReading, a := zext16 kind, b := 0 }, .inr rfl, by rw [hres]; simp only [judge, if_neg hk]⟩
  · exact .inr ⟨e, .inl he, hres⟩

/-- The codes of the drain and of what follows it (R136 to R140, R214). -/
def echoCodes : List ErrorCode := .linkAttr :: .notInSync :: exchangeCodes

/-- The drain and what follows it: still draining, ended by an error, or synchronized (R136 to R140). -/
theorem drainAndEcho_spec (C : Codec) (s : State) :
    (∃ (o : Oracle) (es : List Event), (∀ e ∈ es, e.ReadOf 1) ∧
      drainAndEcho C s = .running { s with oracle := o, trace := s.trace ++ es }) ∨
    ∃ (frame : List Byte) (t : State), (frame = s.txFrame ∨ frame = C.enc s.txPkt) ∧
      Ran (Event.Syncing (C.enc s.txPkt)) s.txPkt frame s t ∧
      (drainAndEcho C s = .ok none { t with regime := .blocking, sync := .synced } ∨
        ∃ e, e.code ∈ echoCodes ∧
          (drainAndEcho C s = .raise e t ∨ drainAndEcho C s = .raise e { t with regime := .blocking, sync := .awaitingEcho })) := by
  obtain ⟨o, es, hes, hd⟩ := drainLoop_spec (max 1 s.oracle.reads.length) s
  have hsync : ∀ e ∈ es, e.Syncing (C.enc s.txPkt) := fun e he => .inl (.inr (.inr (hes e he)))
  have hran : Ran (Event.Syncing (C.enc s.txPkt)) s.txPkt s.txFrame s { s with oracle := o, trace := s.trace ++ es } :=
    ⟨s.resyncCount, s.rxFrame, s.rxPkt, s.crcReg, s.written, o, s.point, es, .inl rfl, hsync, rfl⟩
  rcases hd with hd | hd | ⟨e, he, hd⟩
  case inr.inl => exact .inl ⟨o, es, hes, by simp only [drainAndEcho, drain, hd, Res.bind]⟩
  case inr.inr =>
    exact .inr ⟨_, _, .inl rfl, hran, .inr ⟨e, by simp [echoCodes, exchangeCodes, receiveCodes, he],
      .inl (by simp only [drainAndEcho, drain, hd, Res.bind])⟩⟩
  have hde : drainAndEcho C s = echo C { s with oracle := o, trace := s.trace ++ es } := by
    simp only [drainAndEcho, drain, hd, Res.bind]
  rw [hde]
  obtain ⟨o', he⟩ := echo_spec C { s with oracle := o, trace := s.trace ++ es }
  rcases he with he | he
  · refine .inr ⟨_, _, .inl rfl, hran.trans ⟨s.resyncCount, s.rxFrame, s.rxPkt, s.crcReg, s.written, o', s.point,
      [.sleep 20, .config 7 10 .err], .inl rfl, ?_, rfl⟩, .inr ⟨_, ?_, .inl he⟩⟩
    · simpa using ⟨.inr (.inl rfl), .inr (.inr ⟨_, rfl⟩)⟩
    · simp [echoCodes]
  · rw [he]
    obtain ⟨t, ht, hres⟩ := exchange_ran C .echo { s with
      regime := .blocking, sync := .awaitingEcho, oracle := o', trace := s.trace ++ es ++ [.sleep 20, .config 7 10 .ok] }
    obtain ⟨k, x, y, c, w, o'', p, es', hk, hes', rfl⟩ := ht
    have hall : ∀ e ∈ es ++ ([.sleep 20, .config 7 10 .ok] ++ es'), e.Syncing (C.enc s.txPkt) := by
      intro e he
      simp only [List.mem_append, List.mem_cons, List.not_mem_nil, or_false] at he
      rcases he with he | (rfl | rfl) | he
      · exact hsync e he
      · exact .inr (.inl rfl)
      · exact .inr (.inr ⟨_, rfl⟩)
      · exact .inl (hes' e he)
    refine .inr ⟨C.enc s.txPkt, _, .inr rfl, ⟨k, x, y, c, w, o'', p, _, hk, hall, rfl⟩, ?_⟩
    rcases hres with ⟨kind, value, hres⟩ | ⟨e, hc, hres⟩
    · by_cases hk' : kind = Config.kindSyncOk
      · exact .inl (by rw [hres]; simp only [judge, if_pos hk', List.append_assoc])
      · exact .inr ⟨{ code := .notInSync, a := zext16 kind, b := 0 }, by simp [echoCodes],
          .inr (by rw [hres]; simp only [judge, if_neg hk', List.append_assoc])⟩
    · refine .inr ⟨e, ?_, .inr (by rw [hres]; simp only [List.append_assoc])⟩
      rcases hc with hc | hc | hc <;> simp [echoCodes, exchangeCodes, hc]

/-- Bring-up up to the drain: ended by an error of the open, or of the probe, or at the drain (R131 to R135). -/
theorem openAndProbe_spec (C : Codec) (s : State) :
    (∃ (o : Oracle) (e : OpenError), openAndProbe C s = .raise { code := e.code, a := 0, b := 0 } { s with
      link := .closed, regime := .unconfigured, sync := .unsynced, mode := .idle, oracle := o
      trace := s.trace ++ closing s ++ [.linkOpen (.err e)] }) ∨
    (∃ o : Oracle, openAndProbe C s = .raise { code := .linkAttr, a := 0, b := 0 } { s with
      link := .opened, regime := .unconfigured, sync := .unsynced, mode := .idle, oracle := o
      trace := s.trace ++ closing s ++ [.linkOpen .ok, .config 0 0 .err] }) ∨
    ∃ (n : Nat) (x : List Byte) (w : Bool) (o : Oracle) (es : List Event) (t : State), n ≤ 100 ∧
      ((x = C.enc (cmdPacket 0x30 0 0) ∧ w = true) ∨ (x = s.txFrame ∧ w = s.written.txFrame)) ∧
      (∀ e ∈ es, e.Syncing (C.enc (cmdPacket 0x30 0 0))) ∧
      t = { s with
        link := .opened, regime := .drain, sync := .seekingHeader, mode := .idle, syncCount := n
        crcReg := crcRun 0xFFFF (cmdBody 0x30 0 0), txPkt := cmdPacket 0x30 0 0, txFrame := x
        written := { s.written with crcReg := true, txPkt := true, txFrame := w }, oracle := o
        trace := s.trace ++ closing s ++ [.linkOpen .ok, .config 0 0 .ok] ++ es } ∧
      (openAndProbe C s = .ok () { t with sync := .drainingGarbage, point := .draining } ∨
        ∃ e, e.code ∈ probeCodes ∧ openAndProbe C s = .raise e t) := by
  obtain ⟨o, ⟨e, h⟩ | h | h⟩ := openLink_spec s
  · exact .inl ⟨o, e, by simp only [openAndProbe, h, Res.bind]⟩
  · exact .inr (.inl ⟨o, by simp only [openAndProbe, h, Res.bind]⟩)
  · obtain ⟨t, ⟨n, x, w, o', es, hn, hx, hes, rfl⟩, hres⟩ := probe_spec C (cmdPacket 0x30 0 0) (buildSync { s with
      link := .opened, regime := .drain, sync := .seekingHeader, mode := .idle, oracle := o
      trace := s.trace ++ closing s ++ [.linkOpen .ok, .config 0 0 .ok] })
    have hp : ∀ v : State, (buildSync v).txPkt = cmdPacket 0x30 0 0 := fun _ => rfl
    refine .inr (.inr ⟨n, x, w, o', es, _, hn, hx, fun e he => .inl ((hes e he).imp id .inr), rfl, ?_⟩)
    rcases hres with hres | ⟨e, he, hres⟩
    · exact .inl (by simp only [openAndProbe, h, Res.bind, hp, hres]; simp only [buildSync_eq])
    · exact .inr ⟨e, he, by simp only [openAndProbe, h, Res.bind, hp, hres]; simp only [buildSync_eq]⟩

/-- What an OPEN_AND_SYNC may leave (R131): it writes every field but the two flags, the host's fields and `S.busy`, and its mode is Idle.
Either the open failed and the link is closed, or the link is open and the events after the open keep it so. -/
def Opened (C : Codec) (s t : State) : Prop :=
  ∃ (l : LinkState) (g : Regime) (y : SyncState) (n k : Nat) (c : Word16) (pkt frame x p : List Byte) (w : Written) (o : Oracle)
    (pt : Point) (es : List Event),
    (n = s.syncCount ∨ n ≤ 100) ∧ (k = s.resyncCount ∨ k ≤ 100) ∧
    ((∃ e, es = [.linkOpen (.err e)] ∧ l = .closed) ∨
      ∃ r rest, es = .linkOpen .ok :: .config 0 0 r :: rest ∧ l = .opened ∧ ∀ e ∈ rest, e.Syncing (C.enc (cmdPacket 0x30 0 0))) ∧
    t = { s with
      link := l, regime := g, sync := y, mode := .idle, syncCount := n, resyncCount := k, crcReg := c, txPkt := pkt, txFrame := frame
      rxFrame := x, rxPkt := p, written := w, oracle := o, point := pt, trace := s.trace ++ closing s ++ es }

/-- What OPEN_AND_SYNC keeps, and that its mode is Idle from the start (R131). -/
theorem Opened.keeps {C : Codec} {s t : State} (h : Opened C s t) :
    t.mode = .idle ∧ t.rawFlag = s.rawFlag ∧ t.debug = s.debug ∧ t.busy = s.busy ∧ t.status = s.status ∧ t.result = s.result ∧
      t.requests = s.requests ∧ t.resets = s.resets := by
  obtain ⟨l, g, y, n, k, c, pkt, frame, x, p, w, o, pt, es, -, -, -, rfl⟩ := h
  exact ⟨rfl, rfl, rfl, rfl, rfl, rfl, rfl, rfl⟩

/-- Where a drain that has not ended leaves the engine (R136, R137). -/
def AtDrain (C : Codec) (s t : State) : Prop :=
  t.link = .opened ∧ t.regime = .drain ∧ t.sync = .drainingGarbage ∧ t.point = .draining ∧ t.resyncCount = s.resyncCount ∧
    t.written.txPkt = true ∧ t.txPkt = cmdPacket 0x30 0 0 ∧
    (t.txFrame = C.enc (cmdPacket 0x30 0 0) ∨ (t.txFrame = s.txFrame ∧ t.written.txFrame = s.written.txFrame)) ∧
    t.rxFrame = s.rxFrame ∧ t.rxPkt = s.rxPkt ∧ t.written.rxFrame = s.written.rxFrame ∧ t.written.rxPkt = s.written.rxPkt

theorem openAndSyncOp_spec (C : Codec) (s : State) :
    ∃ t, Opened C s t ∧
      ((openAndSyncOp C s = .running t ∧ AtDrain C s t) ∨
        (openAndSyncOp C s = .ok none t ∧ t.link = .opened ∧ t.regime = .blocking ∧ t.sync = .synced) ∨
        ∃ e, e.code ∈ codesOf 0x01 ∧ openAndSyncOp C s = .raise e t) := by
  rcases openAndProbe_spec C s with ⟨o, e, h⟩ | ⟨o, h⟩ | ⟨n, x, w, o, es, u, hn, hx, hes, rfl, hres⟩
  · refine ⟨_, ⟨.closed, .unconfigured, .unsynced, s.syncCount, s.resyncCount, s.crcReg, s.txPkt, s.txFrame, s.rxFrame, s.rxPkt,
      s.written, o, s.point, _, .inl rfl, .inl rfl, .inl ⟨e, rfl, rfl⟩, rfl⟩,
      .inr (.inr ⟨{ code := e.code, a := 0, b := 0 }, ?_, by simp only [openAndSyncOp, h, Res.bind]⟩)⟩
    cases e <;> decide
  · exact ⟨_, ⟨.opened, .unconfigured, .unsynced, s.syncCount, s.resyncCount, s.crcReg, s.txPkt, s.txFrame, s.rxFrame, s.rxPkt,
      s.written, o, s.point, _, .inl rfl, .inl rfl, .inr ⟨.err, [], rfl, rfl, by simp⟩, rfl⟩,
      .inr (.inr ⟨{ code := .linkAttr, a := 0, b := 0 }, by decide, by simp only [openAndSyncOp, h, Res.bind]⟩)⟩
  rcases hres with hres | ⟨e, he, hres⟩
  case inr =>
    refine ⟨_, ⟨.opened, .drain, .seekingHeader, n, s.resyncCount, crcRun 0xFFFF (cmdBody 0x30 0 0), cmdPacket 0x30 0 0, x, s.rxFrame,
      s.rxPkt, { s.written with crcReg := true, txPkt := true, txFrame := w }, o, s.point, .linkOpen .ok :: .config 0 0 .ok :: es,
      .inr hn, .inl rfl, .inr ⟨.ok, es, rfl, rfl, hes⟩, rfl⟩, .inr (.inr ⟨e, ?_, ?_⟩)⟩
    · simp only [probeCodes, List.mem_cons, List.not_mem_nil, or_false] at he
      rcases he with he | he | he | he <;> rw [he] <;> decide
    · simp only [openAndSyncOp, hres, Res.bind, List.append_assoc, List.cons_append, List.nil_append]
  obtain ⟨v, hv⟩ : ∃ v : State, v = { s with
      link := .opened, regime := .drain, sync := .drainingGarbage, mode := .idle, syncCount := n
      crcReg := crcRun 0xFFFF (cmdBody 0x30 0 0), txPkt := cmdPacket 0x30 0 0, txFrame := x
      written := { s.written with crcReg := true, txPkt := true, txFrame := w }, oracle := o, point := .draining
      trace := s.trace ++ closing s ++ [.linkOpen .ok, .config 0 0 .ok] ++ es } := ⟨_, rfl⟩
  have hop : openAndSyncOp C s = drainAndEcho C v := by rw [hv]; simp only [openAndSyncOp, hres, Res.bind]
  rw [hop]
  have hspec := drainAndEcho_spec C v
  rw [hv] at hspec ⊢
  rcases hspec with
    ⟨o', es', hes', hd⟩ | ⟨frame, t, -, ⟨k, y, z, c, w', o', p, es', hk, hes', rfl⟩, hd⟩
  · refine ⟨_, ⟨.opened, .drain, .drainingGarbage, n, s.resyncCount, crcRun 0xFFFF (cmdBody 0x30 0 0), cmdPacket 0x30 0 0, x, s.rxFrame,
      s.rxPkt, { s.written with crcReg := true, txPkt := true, txFrame := w }, o', .draining,
      .linkOpen .ok :: .config 0 0 .ok :: (es ++ es'), .inr hn, .inl rfl, .inr ⟨.ok, es ++ es', rfl, rfl, ?_⟩, rfl⟩, .inl ⟨?_, ?_⟩⟩
    · intro e he
      rcases List.mem_append.1 he with he | he
      · exact hes e he
      · exact .inl (.inr (.inr (hes' e he)))
    · simpa only [List.append_assoc, List.cons_append, List.nil_append] using hd
    · exact ⟨rfl, rfl, rfl, rfl, rfl, rfl, rfl, hx.imp And.left id, rfl, rfl, rfl, rfl⟩
  · have hall : ∀ e ∈ es ++ es', e.Syncing (C.enc (cmdPacket 0x30 0 0)) := by
      intro e he
      rcases List.mem_append.1 he with he | he
      · exact hes e he
      · exact hes' e he
    have ho : ∀ (g : Regime) (y' : SyncState), Opened C s _ := fun g y' =>
      ⟨.opened, g, y', n, k, c, cmdPacket 0x30 0 0, frame, y, z, w', o', p, .linkOpen .ok :: .config 0 0 .ok :: (es ++ es'),
        .inr hn, hk, .inr ⟨.ok, es ++ es', rfl, rfl, hall⟩, rfl⟩
    rcases hd with hd | ⟨e, he, hd | hd⟩
    · exact ⟨_, ho .blocking .synced, .inr (.inl ⟨by simpa only [List.append_assoc, List.cons_append, List.nil_append] using hd,
        rfl, rfl, rfl⟩)⟩
    · refine ⟨_, ho .drain .drainingGarbage, .inr (.inr ⟨e, ?_, by simpa only [List.append_assoc, List.cons_append, List.nil_append] using hd⟩)⟩
      simp only [echoCodes, exchangeCodes, receiveCodes, List.mem_cons, List.not_mem_nil, or_false] at he
      rcases he with he | he | he | he | he | he | he | he | he | he | he <;> rw [he] <;> decide
    · refine ⟨_, ho .blocking .awaitingEcho,
        .inr (.inr ⟨e, ?_, by simpa only [List.append_assoc, List.cons_append, List.nil_append] using hd⟩)⟩
      simp only [echoCodes, exchangeCodes, receiveCodes, List.mem_cons, List.not_mem_nil, or_false] at he
      rcases he with he | he | he | he | he | he | he | he | he | he | he <;> rw [he] <;> decide

/-! ### The request cycle -/

/-- Each request row is the request cycle of its operation's body (R204). -/
theorem exec_request (i : Instr) (op : Byte) (s : State) (h : i.requestCode = some op) :
    (∃ a b, i = .openAndSync a b ∧ op = 0x01 ∧ exec i s = .next (hostOp 0x01 (openAndSyncOp Config.codec) s)) ∨
    (∃ a b, i = .setRawMode a b ∧ op = 0x02 ∧ exec i s = .next (hostOp 0x02 (setRawModeOp Config.codec) s)) ∨
    (∃ low high, i = .setTriggerMode low high ∧ op = 0x03 ∧ exec i s = .next (hostOp 0x03 (setTriggerModeOp Config.codec low high) s)) ∨
    (∃ a b, i = .readSensorValue a b ∧ op = 0x04 ∧ exec i s = .next (hostOp 0x04 (readSensorValueOp Config.codec) s)) ∨
    (∃ n b, i = .crc16 n b ∧ op = 0x05 ∧ exec i s = .next (hostOp 0x05 (crc16Op n) s)) ∨
    (∃ a b, i = .setDebug a b ∧ op = 0x06 ∧ exec i s = .next (hostOp 0x06 (setDebugOp b) s)) ∨
    (∃ a b, i = .close a b ∧ op = 0x07 ∧ exec i s = .next (hostOp 0x07 closeOp s)) ∨
    ((op = 0x00 ∨ 0x08 ≤ op) ∧ exec i s = .next (hostOp op (illegalOp op) s)) := by
  have h08 : ∀ low : BitVec 3, (0x08 : Byte) ≤ 0x08 ||| low.setWidth 8 := by decide
  have h10 : ∀ low : BitVec 4, (0x08 : Byte) ≤ 0x10 ||| low.setWidth 8 := by decide
  have h20 : ∀ low : BitVec 5, (0x08 : Byte) ≤ 0x20 ||| low.setWidth 8 := by decide
  have h40 : ∀ low : BitVec 6, (0x08 : Byte) ≤ 0x40 ||| low.setWidth 8 := by decide
  have h80 : ∀ low : BitVec 7, (0x08 : Byte) ≤ 0x80 ||| low.setWidth 8 := by decide
  cases i <;> simp only [Instr.requestCode, Option.some.injEq, reduceCtorEq] at h <;> subst h
  case openAndSync a b => exact .inl ⟨a, b, rfl, rfl, rfl⟩
  case setRawMode a b => exact .inr (.inl ⟨a, b, rfl, rfl, rfl⟩)
  case setTriggerMode a b => exact .inr (.inr (.inl ⟨a, b, rfl, rfl, rfl⟩))
  case readSensorValue a b => exact .inr (.inr (.inr (.inl ⟨a, b, rfl, rfl, rfl⟩)))
  case crc16 a b => exact .inr (.inr (.inr (.inr (.inl ⟨a, b, rfl, rfl, rfl⟩))))
  case setDebug a b => exact .inr (.inr (.inr (.inr (.inr (.inl ⟨a, b, rfl, rfl, rfl⟩)))))
  case close a b => exact .inr (.inr (.inr (.inr (.inr (.inr (.inl ⟨a, b, rfl, rfl, rfl⟩))))))
  all_goals refine .inr (.inr (.inr (.inr (.inr (.inr (.inr ⟨?_, rfl⟩))))))
  case reserved00 => exact .inl rfl
  case reserved08 low _ _ => exact .inr (h08 low)
  case reserved10 low _ _ => exact .inr (h10 low)
  case reserved20 low _ _ => exact .inr (h20 low)
  case reserved40 low _ _ => exact .inr (h40 low)
  case reserved80 low _ _ => exact .inr (h80 low)

/-- The state in which an accepted request's body starts (R204). -/
def State.accepted (s : State) : State := { s with busy := true }

/-- The ways a request can leave the engine, one constructor for each (R205, R206). In each, `u` is the state in which the body ended. -/
inductive RequestOutcome (s : State) : Byte → State → Prop where
  /-- OPEN_AND_SYNC is still draining. -/
  | draining (u : State) (hu : Opened Config.codec s.accepted u) (hd : AtDrain Config.codec s.accepted u) : RequestOutcome s 0x01 u
  /-- OPEN_AND_SYNC succeeded. -/
  | synced (u : State) (hu : Opened Config.codec s.accepted u) (hl : u.link = .opened) (hr : u.regime = .blocking)
      (hs : u.sync = .synced) : RequestOutcome s 0x01 (u.ended 0x01 Status.success 0 0)
  /-- SET_RAW_MODE succeeded. -/
  | rawMode (u : State) (p f : List Byte) (hs : s.sync = .synced)
      (hu : Ran (Event.Exchanging (Config.codec.enc (cmdPacket 0x10 0 0))) p f s.accepted u) :
      RequestOutcome s 0x02 (({ u with rawFlag := true, mode := .rawConfigured } : State).ended 0x02 Status.success 0 0)
  /-- SET_TRIGGER_MODE succeeded. -/
  | triggerMode (u : State) (p f : List Byte) (low high : Word16) (hs : s.sync = .synced) (hl : low.toInt ≤ high.toInt)
      (hu : Ran (Event.Exchanging (Config.codec.enc (cmdPacket 0x20 low high))) p f s.accepted u) :
      RequestOutcome s 0x03 (({ u with mode := .triggerConfigured } : State).ended 0x03 Status.success 0 0)
  /-- READ_SENSOR_VALUE succeeded. -/
  | reading (u : State) (value : Word16) (hs : s.sync = .synced) (hm : s.mode ≠ .idle)
      (hu : Ran Event.Reading s.txPkt s.txFrame s.accepted u) :
      RequestOutcome s 0x04 (({ u with result := value } : State).ended 0x04 Status.success 0 0)
  /-- CRC16. -/
  | crc (reg c : Word16) (drawn : Nat) :
      RequestOutcome s 0x05 (({ s with crcReg := reg, result := c, oracle := { s.oracle with drawn := drawn } } : State).ended 0x05
        Status.success 0 0)
  /-- SET_DEBUG. -/
  | debug (flag : Bool) : RequestOutcome s 0x06 (({ s with debug := flag } : State).ended 0x06 Status.success 0 0)
  /-- CLOSE. -/
  | closed : RequestOutcome s 0x07 (({ s with
      link := .closed, regime := .unconfigured, sync := .unsynced, mode := .idle, trace := s.trace ++ closing s } : State).ended 0x07
        Status.success 0 0)
  /-- A usage error. -/
  | usage (op : Byte) (c : ErrorCode) (a b : Word16) (hc : c ∈ codesOf op) (hu : c.cls = .usage) :
      RequestOutcome s op (s.ended op (Status.ofError c) a b)
  /-- A failed OPEN_AND_SYNC. -/
  | openFailed (e : Raise) (u : State) (hc : e.code ∈ codesOf 0x01) (hu : Opened Config.codec s.accepted u) :
      RequestOutcome s 0x01 (u.desync.ended 0x01 (Status.ofError e.code) e.a e.b)
  /-- A mode command that failed. -/
  | modeFailed (op opc : Byte) (low high : Word16) (e : Raise) (u : State) (p f : List Byte)
      (ho : (op = 0x02 ∧ opc = 0x10 ∧ low = 0 ∧ high = 0) ∨ (op = 0x03 ∧ opc = 0x20 ∧ low.toInt ≤ high.toInt))
      (hs : s.sync = .synced) (hc : e.code ∈ codesOf op) (hcls : e.code.cls ≠ .usage)
      (hu : Ran (Event.Exchanging (Config.codec.enc (cmdPacket opc low high))) p f s.accepted u) :
      RequestOutcome s op ((raiseEffect op e u).ended op (Status.ofError e.code) e.a e.b)
  /-- A reading that failed. -/
  | readFailed (e : Raise) (u : State) (hs : s.sync = .synced) (hm : s.mode ≠ .idle) (hc : e.code ∈ codesOf 0x04)
      (hcls : e.code.cls ≠ .usage) (hu : Ran Event.Reading s.txPkt s.txFrame s.accepted u) :
      RequestOutcome s 0x04 ((raiseEffect 0x04 e u).ended 0x04 (Status.ofError e.code) e.a e.b)

theorem complete_usage (op : Byte) (c : ErrorCode) (a b : Word16) (s : State) (h : c.cls = .usage) :
    complete op (.raise { code := c, a := a, b := b } s) = s.ended op (Status.ofError c) a b := by
  rw [complete_raise]
  simp only [raiseEffect, h]

/-- Every error of OPEN_AND_SYNC desynchronizes (R141). -/
theorem raiseEffect_bringUp (e : Raise) (s : State) (h : e.code ∈ codesOf 0x01) : raiseEffect 0x01 e s = s.desync := by
  rcases raiseEffect_spec 0x01 e s with ⟨he, -⟩ | ⟨-, hc | ⟨-, ho⟩⟩
  · exact he
  · exfalso
    revert h hc
    cases e.code <;> decide
  · exact absurd rfl ho

/-- Every request answers, in one of the ways listed (R205, R206). -/
theorem exec_request_outcome (i : Instr) (op : Byte) (s : State) (h : i.requestCode = some op) :
    ∃ t, exec i s = .next t ∧ RequestOutcome s op t := by
  rcases exec_request i op s h with ⟨a, b, rfl, rfl, he⟩ | ⟨a, b, rfl, rfl, he⟩ | ⟨low, high, rfl, rfl, he⟩ | ⟨a, b, rfl, rfl, he⟩ |
    ⟨n, b, rfl, rfl, he⟩ | ⟨a, b, rfl, rfl, he⟩ | ⟨a, b, rfl, rfl, he⟩ | ⟨ho, he⟩
  all_goals refine ⟨_, he, ?_⟩; rw [hostOp]
  · obtain ⟨u, hu, ⟨hr, hd⟩ | ⟨hr, h1, h2, h3⟩ | ⟨e, hc, hr⟩⟩ := openAndSyncOp_spec Config.codec s.accepted
    all_goals simp only [State.accepted] at hr; rw [hr]
    · exact .draining u hu hd
    · exact .synced u hu h1 h2 h3
    · rw [complete_raise, raiseEffect_bringUp e u hc]
      exact .openFailed e u hc hu
  · rcases setRawModeOp_spec Config.codec s.accepted with ⟨-, hr⟩ | ⟨hs, u, hu, hr | ⟨e, hc, hr⟩⟩
    all_goals simp only [State.accepted] at hr; rw [hr]
    · rw [sequenceError, complete_usage _ _ _ _ _ rfl]
      exact .usage 0x02 .sequence s.sync.diag s.mode.diag (by decide) rfl
    · exact .rawMode u _ _ hs hu
    · rw [complete_raise]
      have hcc : e.code ∈ codesOf 0x02 ∧ e.code.cls ≠ .usage := by
        rcases hc with hc | hc
        · revert hc; cases e.code <;> decide
        · rw [hc]; decide
      exact .modeFailed 0x02 0x10 0 0 e u _ _ (.inl ⟨rfl, rfl, rfl, rfl⟩) hs hcc.1 hcc.2 hu
  · rcases setTriggerModeOp_spec Config.codec low high s.accepted with ⟨-, hr⟩ | ⟨-, -, hr⟩ | ⟨hs, hl, u, hu, hr | ⟨e, hc, hr⟩⟩
    all_goals simp only [State.accepted] at hr; rw [hr]
    · rw [sequenceError, complete_usage _ _ _ _ _ rfl]
      exact .usage 0x03 .sequence s.sync.diag s.mode.diag (by decide) rfl
    · rw [complete_usage _ _ _ _ _ rfl]
      exact .usage 0x03 .badThresholds low high (by decide) rfl
    · exact .triggerMode u _ _ low high hs hl hu
    · rw [complete_raise]
      have hcc : e.code ∈ codesOf 0x03 ∧ e.code.cls ≠ .usage := by
        rcases hc with hc | hc
        · revert hc; cases e.code <;> decide
        · rw [hc]; decide
      exact .modeFailed 0x03 0x20 low high e u _ _ (.inr ⟨rfl, rfl, hl⟩) hs hcc.1 hcc.2 hu
  · rcases readSensorValueOp_spec Config.codec s.accepted with ⟨-, hr⟩ | ⟨hs, hm, u, hu, ⟨v, hr⟩ | ⟨e, hc, hr⟩⟩
    all_goals simp only [State.accepted] at hr; rw [hr]
    · rw [sequenceError, complete_usage _ _ _ _ _ rfl]
      exact .usage 0x04 .sequence s.sync.diag s.mode.diag (by decide) rfl
    · exact .reading u v hs hm hu
    · rw [complete_raise]
      have hcc : e.code ∈ codesOf 0x04 ∧ e.code.cls ≠ .usage := by
        rcases hc with hc | hc
        · revert hc; cases e.code <;> decide
        · rw [hc]; decide
      exact .readFailed e u hs hm hcc.1 hcc.2 hu
  · by_cases hn : n.toNat ≤ s.reqData.length
    · simp only [crc16Op, crcUnit, State.drewData, hn, if_true, complete_ok]
      exact .crc _ _ s.oracle.drawn
    · simp only [crc16Op, crcUnit, State.drewData, hn, if_false, complete_ok]
      exact .crc _ _ (s.oracle.drawn + 1)
  · exact .debug _
  · rw [closeOp, closeIfOpen_closed]
    exact .closed
  · rw [illegalOp, complete_usage _ _ _ _ _ rfl]
    refine .usage op .illegalOp _ _ ?_ rfl
    have : ∀ op : Byte, (op = 0x00 ∨ 0x08 ≤ op) → codesOf op = [.illegalOp] := by decide +kernel
    simp [this op ho]

end Sys2Proof.Machine
end

