-- ==== Sys2Proof/Laws/Step.lean ====
section
/-! SUPPORT. Everything a step can do, said once: proofs about steps cite `step_cases` and unfold no step. -/

namespace Sys2Proof.Machine

/-- Every request word decodes, to a row with that request's code (R84). -/
theorem decodeHreq_code (op : Byte) (a b : Word16) : (hreqInstr op a b).requestCode = some op := by
  by_cases h : op = 0 ∨ op = 1 ∨ op = 2 ∨ op = 3 ∨ op = 4 ∨ op = 5 ∨ op = 6 ∨ op = 7
  · rcases h with h | h | h | h | h | h | h | h <;> subst h <;> rfl
  have hbits : ∀ op : Byte, (op < 0x10 → 0x08 ≤ op → 0x08 ||| (op.extractLsb' 0 3).setWidth 8 = op) ∧
      (¬ op < 0x10 → op < 0x20 → 0x10 ||| (op.extractLsb' 0 4).setWidth 8 = op) ∧
      (¬ op < 0x20 → op < 0x40 → 0x20 ||| (op.extractLsb' 0 5).setWidth 8 = op) ∧
      (¬ op < 0x40 → op < 0x80 → 0x40 ||| (op.extractLsb' 0 6).setWidth 8 = op) ∧
      (¬ op < 0x80 → 0x80 ||| (op.extractLsb' 0 7).setWidth 8 = op) := by decide +kernel
  have hge : ∀ op : Byte, ¬ (op = 0 ∨ op = 1 ∨ op = 2 ∨ op = 3 ∨ op = 4 ∨ op = 5 ∨ op = 6 ∨ op = 7) → 0x08 ≤ op := by decide +kernel
  obtain ⟨k1, k2, k3, k4, k5⟩ := hbits op
  have h8 := hge op h
  simp only [not_or] at h
  obtain ⟨h0, h1, h2, h3, h4, h5, h6, h7⟩ := h
  rw [hreqInstr, if_neg h1, if_neg h2, if_neg h3, if_neg h4, if_neg h5, if_neg h6, if_neg h7, if_neg h0]
  split
  · exact congrArg some (k1 ‹_› h8)
  split
  · exact congrArg some (k2 ‹_› ‹_›)
  split
  · exact congrArg some (k3 ‹_› ‹_›)
  split
  · exact congrArg some (k4 ‹_› ‹_›)
  · exact congrArg some (k5 ‹_›)

/-- A request at the port always decodes (R84). -/
theorem decode_request (r : Request) : ∃ (i : Instr) (op : Byte), decode .hreq r.bytes = .ok i ∧ i.requestCode = some op :=
  ⟨_, _, rfl, decodeHreq_code _ _ _⟩

/-- A validated packet decodes to a response row with its kind and value (R83). -/
theorem decode_response (kind : Byte) (value : Word16) :
    ∃ i, decode .rsp (rspPacket kind value) = .ok i ∧ i.response = some (kind, value) := by
  refine ⟨rspInstr kind value (crc16 [kind, hi value, lo value] 3), ?_, ?_⟩
  · simp only [decode, decodeRsp, rspPacket, be16_hi_lo]
  · unfold rspInstr
    repeat' split
    all_goals first
      | rfl
      | (rename_i h; subst h; rfl)

/-- A command that decodes builds a packet of the kind its row names (R75, R180). -/
theorem exec_command (bytes : List Byte) (i : Instr) (s : State) (h : decode .cmd bytes = .ok i) :
    ∃ (opc : Byte) (low high : Word16), exec i s = .next (buildCmd opc low high s) := by
  simp only [decode, decodeCmd] at h
  split at h
  · split at h
    · split at h <;> simp at h
      subst h
      exact ⟨0x30, 0, 0, rfl⟩
    · split at h
      · split at h <;> simp at h
        subst h
        exact ⟨0x10, 0, 0, rfl⟩
      · split at h <;> simp at h
        subst h
        exact ⟨0x20, _, _, rfl⟩
  · simp at h

/-- The ways a step with no reset in it can go on, one constructor for each. -/
inductive RunOutcome (s : State) : State → Prop where
  /-- The engine waits for a request, or the port is busy (R203, R242). -/
  | waiting (hp : s.point = .idle) (hq : s.requests = [] ∨ s.busy = true) : RunOutcome s s
  /-- A request is accepted (R204). -/
  | accepted (hp : s.point = .idle) (hb : s.busy = false) (r : Request) (rest : List Request) (op : Byte) (t : State)
      (hq : s.requests = r :: rest) (ht : RequestOutcome (s.takeRequest r rest) op t) : RunOutcome s t
  /-- The encoder builds a command (R180). -/
  | built (command : List Byte) (hp : s.point = .building command) (opc : Byte) (low high : Word16) :
      RunOutcome s (buildCmd opc low high { s with point := .idle })
  /-- A drain goes on (R137). -/
  | drained (hp : s.point = .draining) (hw : s.written.txPkt = true) : RunOutcome s (complete 0x01 (drainAndEcho Config.codec s))
  /-- A response was validated and judged (R168). -/
  | judged (x : Exchange) (hp : s.point = .awaiting x) (u : State) (hu : Received s u) (kind : Byte) (value : Word16) :
      RunOutcome s (complete x.op (judge x kind value u))
  /-- Receiving failed (R170). -/
  | refused (x : Exchange) (hp : s.point = .awaiting x) (u : State) (hu : Received s u) (e : Raise) (he : e.code ∈ receiveCodes) :
      RunOutcome s (complete x.op (.raise e u))

/-- A step with no reset in it that answers a next state is one of the ways listed. -/
theorem running_cases (s t : State) (h : stepRunning s = .next t) : RunOutcome s t := by
  simp only [stepRunning] at h
  cases hp : s.point with
  | idle =>
    simp only [hp, stepIdle] at h
    cases hq : s.requests with
    | nil =>
      simp only [hq, Host.Outcome.next.injEq] at h
      exact h ▸ .waiting hp (.inl hq)
    | cons r rest =>
      simp only [hq] at h
      cases hb : s.busy with
      | true =>
        simp only [hb, if_true, Host.Outcome.next.injEq] at h
        exact h ▸ .waiting hp (.inr hb)
      | false =>
        obtain ⟨i, op, hd, hi⟩ := decode_request r
        simp only [hb, Bool.false_eq_true, if_false, hd] at h
        obtain ⟨t', ht, hout⟩ := exec_request_outcome i op (s.takeRequest r rest) hi
        rw [ht] at h
        cases h
        exact .accepted hp hb r rest op _ hq hout
  | building command =>
    simp only [hp, stepBuilding] at h
    cases hd : decode .cmd command with
    | error e => simp [hd] at h
    | ok i =>
      simp only [hd] at h
      obtain ⟨opc, low, high, hx⟩ := exec_command command i { s with point := .idle } hd
      rw [hx] at h
      cases h
      exact .built command hp opc low high
  | draining =>
    simp only [hp, stepDraining] at h
    cases hw : s.written.txPkt with
    | false => simp [hw] at h
    | true =>
      simp only [hw, if_true, resumeDrain, Host.Outcome.next.injEq] at h
      exact h ▸ .drained hp hw
  | awaiting x =>
    simp only [hp, stepAwaiting] at h
    obtain ⟨u, hu, ⟨p, ⟨kind, value, rfl⟩, hres⟩ | ⟨e, he, hres⟩⟩ := receivePacket_spec Config.codec s
    · obtain ⟨i, hd, hi⟩ := decode_response kind value
      simp only [Config.rspLen, hres, hd, exec_response i kind value u hi, Host.Outcome.next.injEq] at h
      have hpu : u.point = .awaiting x := by
        obtain ⟨k, a, b, c, w, o, es, -, -, rfl⟩ := hu
        exact hp
      simp only [respond, hpu] at h
      exact h ▸ .judged x hp u hu kind value
    · simp only [Config.rspLen, hres, Host.Outcome.next.injEq] at h
      exact h ▸ .refused x hp u hu e he

/-- A step where no reset is to come. -/
theorem step_of_undisturbed (s : State) (h : s.resets = []) : step s = stepRunning s := by simp only [step, stepEngine, h]

/-- A cut-off step leaves the reset state and what is the world's; a step that runs whole differs in the resets to come alone (R240). -/
theorem cutAt_spec (k : Nat) (s t : State) :
    (∃ o : Oracle, s.cutAt k t = { State.reset with requests := t.requests, oracle := o, resets := t.resets.tail }) ∨
      ∃ n : Nat, s.cutAt k t = { t with resets := n :: t.resets.tail } := by
  unfold State.cutAt
  split
  · exact .inl ⟨_, rfl⟩
  · exact .inr ⟨_, rfl⟩

/-- A step that answers a next state is one with no reset to come, a reset, or one that a reset to come cuts off or comes nearer to. -/
theorem step_cases (s t : State) (h : step s = .next t) :
    (s.resets = [] ∧ RunOutcome s t) ∨ (∃ rest, s.resets = 0 :: rest ∧ t = s.applyReset) ∨
      ∃ (k : Nat) (rest : List Nat) (u : State), s.resets = (k + 1) :: rest ∧ RunOutcome s u ∧ t = s.cutAt k u := by
  simp only [step, stepEngine] at h
  split at h
  case h_1 hr => exact .inl ⟨hr, running_cases s t h⟩
  case h_2 rest hr =>
    cases h
    exact .inr (.inl ⟨rest, hr, rfl⟩)
  case h_3 k rest hr =>
    cases hrun : stepRunning s with
    | next u =>
      rw [hrun] at h
      cases h
      exact .inr (.inr ⟨k, rest, u, hr, running_cases s u hrun, rfl⟩)
    | fault f => rw [hrun] at h; cases h
    | refused r => rw [hrun] at h; cases h

end Sys2Proof.Machine
end

