-- ==== Sys2Proof/Laws/Replay.lean ====
section
/-! SUPPORT. Every operation takes from the link's answers exactly what its events say it took, in their order, so that the answers left where
reset cuts an operation off are those that `State.cutAt` computes from the events before it (10_state.md R40, 70_reset_and_hazards.md R240). -/

namespace Sys2Proof.Machine

/-- `t` is reached from `s` by events that took their answers in order. -/
def Replays (s t : State) : Prop := ∃ es : List Event, t.trace = s.trace ++ es ∧ t.oracle = es.foldl Oracle.after s.oracle

/-- A stretch with no event. -/
theorem Replays.same {s t : State} (ht : t.trace = s.trace) (ho : t.oracle = s.oracle) : Replays s t := ⟨[], by simp [ht], by simp [ho]⟩

/-- A stretch of one event. -/
theorem Replays.one {s t : State} (e : Event) (ht : t.trace = s.trace ++ [e]) (ho : t.oracle = s.oracle.after e) : Replays s t :=
  ⟨[e], ht, ho⟩

theorem Replays.trans {s t u : State} (h : Replays s t) (h' : Replays t u) : Replays s u := by
  obtain ⟨es, ht, ho⟩ := h
  obtain ⟨es', ht', ho'⟩ := h'
  exact ⟨es ++ es', by rw [ht', ht, List.append_assoc], by rw [ho', ho, List.foldl_append]⟩

/-- The events of a replayed stretch are those recorded in it. -/
theorem Replays.recorded {s t : State} (h : Replays s t) : t.oracle = (s.recorded t).foldl Oracle.after s.oracle := by
  obtain ⟨es, ht, ho⟩ := h
  rw [State.recorded, ht, List.drop_left, ho]

/-- Two parts of an operation, one after the other. -/
theorem Replays.bind {α β : Type} {s : State} {r : Res α} {k : α → State → Res β} (h : Replays s r.state)
    (hk : ∀ v t, r = .ok v t → Replays t (k v t).state) : Replays s (r.bind k).state := by
  cases r with
  | ok v t => exact h.trans (hk v t rfl)
  | raise e t => exact h
  | running t => exact h

theorem linkOpen_replays (s : State) : Replays s (linkOpen s).2 := .one _ rfl rfl

theorem linkConfigure_replays (min tds : Nat) (s : State) : Replays s (linkConfigure min tds s).2 := .one _ rfl rfl

theorem linkRead_replays (n : Nat) (s : State) : Replays s (linkRead n s).2 := .one _ rfl rfl

theorem linkWrite_replays (frame : List Byte) (s : State) : Replays s (linkWrite frame s).2 := .one _ rfl rfl

theorem linkSleep_replays (tds : Nat) (s : State) : Replays s (linkSleep tds s) := .one _ rfl rfl

theorem closeIfOpen_replays (s : State) : Replays s (closeIfOpen s) := by
  unfold closeIfOpen
  split
  · exact .one .close rfl rfl
  · exact .same rfl rfl

theorem sendCommand_replays (C : Codec) (pkt : List Byte) (s : State) (P : Params) : Replays s (sendCommand C pkt s P).state := by
  have h := linkWrite_replays (C.enc pkt) { s with txFrame := C.enc pkt, written := { s.written with txFrame := true } }
  simp only [sendCommand]
  split
  · exact h
  · split <;> exact h

theorem resyncLoop_replays (n : Nat) (s : State) (P : Params) : Replays s (resyncLoop n s P).state := by
  induction n generalizing s with
  | zero => exact .same rfl rfl
  | succ n ih =>
    have h := linkRead_replays 1 s
    simp only [resyncLoop]
    split
    · exact h
    · have h' : Replays s { (linkRead 1 s).2 with resyncCount := (linkRead 1 s).2.resyncCount + 1 } := h.trans (.same rfl rfl)
      split
      · exact h'
      · exact h'.trans (ih _)

theorem resync_replays (s : State) (P : Params) : Replays s (resync s P).state :=
  Replays.trans (.same rfl rfl) (resyncLoop_replays P.resyncAttempts { s with resyncCount := 0 } P)

theorem discardFrame_replays (s : State) (P : Params) : Replays s (discardFrame s P).state := by
  refine (resync_replays s P).bind fun found t _ => ?_
  split <;> exact .same rfl rfl

theorem checkCrc_replays (n : Nat) (s : State) (P : Params) : Replays s (checkCrc n s P).state := by
  simp only [checkCrc]
  split <;> exact .same rfl rfl

theorem unpackFrame_replays (C : Codec) (n : Nat) (s : State) (P : Params) : Replays s (unpackFrame C n s P).state := by
  unfold unpackFrame
  split
  · exact .same rfl rfl
  · split
    · exact .same rfl rfl
    · split
      · rename_i d _ _ _
        exact Replays.trans (.same rfl rfl)
          (checkCrc_replays n { s with rxPkt := d, written := { s.written with rxPkt := true } } P)
      · exact .same rfl rfl

theorem receivePacket_replays (C : Codec) (n : Nat) (s : State) (P : Params) : Replays s (receivePacket C n s P).state := by
  have h := linkRead_replays (n + P.frameOverhead) s
  simp only [receivePacket]
  split
  · exact h
  · rename_i bytes _
    have h' : Replays s { (linkRead (n + P.frameOverhead) s).2 with
        rxFrame := bytes, written := { (linkRead (n + P.frameOverhead) s).2.written with rxFrame := true } } := h.trans (.same rfl rfl)
    split
    · split
      · exact h'.trans (unpackFrame_replays C n _ P)
      · exact h'.trans (discardFrame_replays _ P)
    · exact h'

theorem judge_replays (x : Exchange) (kind : Byte) (value : Word16) (s : State) (P : Params) : Replays s (judge x kind value s P).state := by
  cases x <;> simp only [judge] <;> split <;> exact .same rfl rfl

theorem awaitResponse_replays (C : Codec) (x : Exchange) (s : State) (P : Params) : Replays s (awaitResponse C x s P).state :=
  Replays.bind (Replays.trans (.same rfl rfl) (receivePacket_replays C P.rspLen { s with point := .awaiting x } P))
    fun _ _ _ => judge_replays x _ _ _ P

theorem exchange_replays (C : Codec) (x : Exchange) (s : State) (P : Params) : Replays s (exchange C x s P).state :=
  (sendCommand_replays C s.txPkt s P).bind fun _ _ _ => awaitResponse_replays C x _ P

theorem setRawModeOp_replays (C : Codec) (s : State) (P : Params) : Replays s (setRawModeOp C s P).state := by
  unfold setRawModeOp
  split
  · exact Replays.trans (.same rfl rfl) (exchange_replays C .rawMode (buildRaw s P) P)
  · exact .same rfl rfl

theorem setTriggerModeOp_replays (C : Codec) (low high : Word16) (s : State) (P : Params) :
    Replays s (setTriggerModeOp C low high s P).state := by
  unfold setTriggerModeOp
  split
  · split
    · exact .same rfl rfl
    · exact Replays.trans (.same rfl rfl) (exchange_replays C .triggerMode (buildTrigger low high s P) P)
  · exact .same rfl rfl

theorem readSensorValueOp_replays (C : Codec) (s : State) (P : Params) : Replays s (readSensorValueOp C s P).state := by
  unfold readSensorValueOp
  split
  · exact awaitResponse_replays C .reading s P
  · exact .same rfl rfl

theorem openLink_replays (s : State) (P : Params) : Replays s (openLink s P).state := by
  have h : Replays s (linkOpen (closeIfOpen s).closed).2 :=
    ((closeIfOpen_replays s).trans (.same rfl rfl)).trans (linkOpen_replays (closeIfOpen s).closed)
  simp only [openLink]
  split
  · exact h
  · have h' := (h.trans (.same rfl rfl)).trans (linkConfigure_replays P.drainMin P.drainTimeoutDs
      { (linkOpen (closeIfOpen s).closed).2 with link := .opened })
    split
    · exact h'
    · exact h'.trans (.same rfl rfl)

theorem probeLoop_replays (C : Codec) (pkt : List Byte) (n : Nat) (s : State) (P : Params) : Replays s (probeLoop C pkt n s P).state := by
  induction n generalizing s with
  | zero => exact .same rfl rfl
  | succ n ih =>
    refine (sendCommand_replays C pkt s P).bind fun _ t _ => ?_
    have h := Replays.trans (.same rfl rfl) (linkRead_replays 1 { t with syncCount := t.syncCount + 1 })
    dsimp only
    split
    · exact h
    · split
      · exact h
      · exact h.trans (ih _)

theorem drainLoop_replays (n : Nat) (s : State) (P : Params) : Replays s (drainLoop n s P).state := by
  induction n generalizing s with
  | zero => exact .same rfl rfl
  | succ n ih =>
    have h := linkRead_replays P.drainChunk s
    simp only [drainLoop]
    split
    · exact h
    · split
      · exact h
      · exact h.trans (ih _)

theorem echo_replays (C : Codec) (s : State) (P : Params) : Replays s (echo C s P).state := by
  have h := (linkSleep_replays P.settleDs s).trans (linkConfigure_replays P.blockMin P.blockTimeoutDs (linkSleep P.settleDs s))
  simp only [echo]
  split
  · exact h
  · exact (h.trans (.same rfl rfl)).trans (exchange_replays C .echo _ P)

theorem drainAndEcho_replays (C : Codec) (s : State) (P : Params) : Replays s (drainAndEcho C s P).state :=
  (drainLoop_replays (max 1 s.oracle.reads.length) s P).bind fun _ _ _ => echo_replays C _ P

theorem openAndSyncOp_replays (C : Codec) (s : State) (P : Params) : Replays s (openAndSyncOp C s P).state := by
  refine Replays.bind ((openLink_replays s P).bind fun _ t _ => Replays.bind ?_ fun _ _ _ => .same rfl rfl) fun _ t _ => drainAndEcho_replays C t P
  exact Replays.trans (.same rfl rfl) (probeLoop_replays C (buildSync t P).txPkt P.syncAttempts { buildSync t P with syncCount := 0 } P)

theorem closeOp_replays (s : State) : Replays s (closeOp s).state := (closeIfOpen_replays s).trans (.same rfl rfl)

/-- Completion keeps it so: `DONE` takes no answer (R205). -/
theorem complete_replays (op : Byte) (s : State) (r : OpRes) (h : Replays s r.state) : Replays s (complete op r) := by
  cases r with
  | ok v t => exact h.trans (.one (.done op Status.success 0 0 (v.getD t.result)) rfl rfl)
  | raise e t =>
    refine h.trans ?_
    have hr : (raiseEffect op e t).trace = t.trace ∧ (raiseEffect op e t).oracle = t.oracle := by
      unfold raiseEffect
      split <;> (try split) <;> exact ⟨rfl, rfl⟩
    exact .one (.done op (Status.ofError e.code) e.a e.b t.result) (by simp only [complete, finish, hr.1, Res.state])
      (by simp only [complete, finish, hr.2]; rfl)
  | running t => exact h

/-- The request cycle (R204). -/
theorem hostOp_replays (op : Byte) (body : State → OpRes) (s : State) (h : ∀ t, Replays t (body t).state) : Replays s (hostOp op body s) :=
  complete_replays op s _ (Replays.trans (.same rfl rfl) (h { s with busy := true }))

end Sys2Proof.Machine
end

