-- ==== Sys2Proof/Tests/Slice0.lean ====
section
/-! SUPPORT. The model's own tests. Expected results come from spec/95_test_vectors.md (named V-… or P…) or from the encoding tables of
spec/30_encoding.md. The second half gives, for each statement with hypotheses, states and operands that meet them. -/

namespace Sys2Proof.Tests

open Sys2Proof.Machine

/-! ### WellFormed refuses ill-formed terms, one for each check -/

theorem test_ill_formed_sync_crc : (Instr.cmdSync 0x1BA7).wellFormed = false := by decide +kernel
theorem test_ill_formed_raw_crc : (Instr.cmdRaw 0x377B).wellFormed = false := by decide +kernel
theorem test_ill_formed_trigger_crc : (Instr.cmdTrigger 70 90 0x9682).wellFormed = false := by decide +kernel
/-- V-CMD-7's packet with its thresholds exchanged: 1 and -32768, with the right CRC for that order. -/
theorem test_ill_formed_trigger_order : (Instr.cmdTrigger 1 0x8000 (cmdCrc 0x20 1 0x8000)).wellFormed = false := by decide +kernel
theorem test_ill_formed_sensor_value_crc : (Instr.rspSensorValue 1 0xD744).wellFormed = false := by decide +kernel
theorem test_ill_formed_sync_ok_crc : (Instr.rspSyncOk 0 0x9C11).wellFormed = false := by decide +kernel
/-- V-SRC-6. -/
theorem test_ill_formed_raw_ack_crc : (Instr.rspRawAck 0 0x7375).wellFormed = false := by decide +kernel
theorem test_ill_formed_trigger_ack_crc : (Instr.rspTriggerAck 0 0xA829).wellFormed = false := by decide +kernel
theorem test_ill_formed_unknown_command_crc : (Instr.rspUnknownCommand 0 0).wellFormed = false := by decide +kernel
theorem test_ill_formed_crc_mismatch_crc : (Instr.rspCrcMismatch 0 0).wellFormed = false := by decide +kernel
theorem test_ill_formed_wrong_size_crc : (Instr.rspWrongSize 0 0).wellFormed = false := by decide +kernel
theorem test_ill_formed_undefined_kind_crc : (Instr.rspUndefinedKind 0x07 0 0x4AC8).wellFormed = false := by decide +kernel
/-- A tag of R77's table in the catch-all row, with the right CRC. -/
theorem test_ill_formed_undefined_kind_tag : (Instr.rspUndefinedKind 0x01 0 0x9C10).wellFormed = false := by decide +kernel

/-! ### Decoding, one word for each constructor, written from R71, R72 and R80 -/

theorem test_decode_cmdSync : decode .cmd [0x30, 0, 0, 0, 0, 0x1B, 0xA6] = .ok (.cmdSync 0x1BA6) := by decide
theorem test_decode_cmdRaw : decode .cmd [0x10, 0, 0, 0, 0, 0x7B, 0x37] = .ok (.cmdRaw 0x7B37) := by decide
theorem test_decode_cmdTrigger :
    decode .cmd [0x20, 0xFF, 0x9C, 0x00, 0x64, 0x63, 0xCC] = .ok (.cmdTrigger 0xFF9C 0x0064 0x63CC) := by decide
theorem test_decode_rspSensorValue : decode .rsp [0x00, 0x12, 0x34, 0x17, 0x4A] = .ok (.rspSensorValue 0x1234 0x174A) := by decide
theorem test_decode_rspSyncOk : decode .rsp [0x01, 0, 0, 0x9C, 0x10] = .ok (.rspSyncOk 0 0x9C10) := by decide
theorem test_decode_rspRawAck : decode .rsp [0x02, 0, 0, 0x73, 0x74] = .ok (.rspRawAck 0 0x7374) := by decide
theorem test_decode_rspTriggerAck : decode .rsp [0x03, 0, 0, 0x29, 0xA8] = .ok (.rspTriggerAck 0 0x29A8) := by decide
theorem test_decode_rspUnknownCommand : decode .rsp [0x04, 0, 0, 0xA5, 0xAD] = .ok (.rspUnknownCommand 0 0xA5AD) := by decide
theorem test_decode_rspCrcMismatch : decode .rsp [0x05, 0, 0, 0xFF, 0x71] = .ok (.rspCrcMismatch 0 0xFF71) := by decide
theorem test_decode_rspWrongSize : decode .rsp [0x06, 0, 0, 0x10, 0x15] = .ok (.rspWrongSize 0 0x1015) := by decide
theorem test_decode_rspUndefinedKind : decode .rsp [0xFF, 0, 0, 0x00, 0x3F] = .ok (.rspUndefinedKind 0xFF 0 0x003F) := by decide
theorem test_decode_openAndSync : decodeTableWord 40 0x0100000000 = some (.openAndSync 0 0) := by decide
theorem test_decode_setRawMode : decodeTableWord 40 0x02AABBCCDD = some (.setRawMode 0xAABB 0xCCDD) := by decide
theorem test_decode_setTriggerMode : decodeTableWord 40 0x030046005A = some (.setTriggerMode 70 90) := by decide
theorem test_decode_readSensorValue : decodeTableWord 40 0x0400000000 = some (.readSensorValue 0 0) := by decide
theorem test_decode_crc16 : decodeTableWord 40 0x0500090000 = some (.crc16 9 0) := by decide
theorem test_decode_setDebug : decodeTableWord 40 0x060000FFFE = some (.setDebug 0 0xFFFE) := by decide
theorem test_decode_close : decodeTableWord 40 0x0700000000 = some (.close 0 0) := by decide
theorem test_decode_reserved00 : decodeTableWord 40 0x0000000000 = some (.reserved00 0 0) := by decide
theorem test_decode_reserved08 : decodeTableWord 40 0x0F00000000 = some (.reserved08 7 0 0) := by decide
theorem test_decode_reserved10 : decodeTableWord 40 0x1A00000000 = some (.reserved10 0xA 0 0) := by decide
theorem test_decode_reserved20 : decodeTableWord 40 0x3100000000 = some (.reserved20 0x11 0 0) := by decide
theorem test_decode_reserved40 : decodeTableWord 40 0x7F00000000 = some (.reserved40 0x3F 0 0) := by decide
theorem test_decode_reserved80 : decodeTableWord 40 0xFF12345678 = some (.reserved80 0x7F 0x1234 0x5678) := by decide
/-- R76: a SYNC command with a payload byte that is not zero is no command; so is an opcode outside R75. -/
theorem test_decode_rejects : decode .cmd [0x30, 0, 0, 1, 0, 0, 0] = .error (.nonZeroPayload 0x30) ∧
    decode .cmd [0x31, 0, 0, 0, 0, 0x10, 0xE2] = .error (.unknownOpcode 0x31) ∧ decode .rsp [0x03, 0, 0, 0x29] = .error (.wrongLength 4) := by
  decide
/-- A command's table word, byte 0 in its highest bits. -/
theorem test_decode_command_word : decodeTableWord 56 0x200046005A8296 = some (.cmdTrigger 70 90 0x8296) := by decide
/-- The word placed at the port runs as the next step. -/
theorem test_placed_word_runs : (step (State.reset.withFetchWord 40 0x0600000001)) =
    .next (({ State.reset with debug := true } : State).ended 0x06 { cls := .none, code := 0x00 } 0 0) := by rfl

/-! ### The reference codec of R114, for the vectors only: the model does not use it -/

/-- COBS: the runs between zeros, each behind its length + 1, then the terminator. -/
def cobsEnc : List Byte → List Byte → List Byte
  | [], run => BitVec.ofNat 8 (run.length + 1) :: run.reverse ++ [0x00]
  | b :: rest, run => if b = 0x00 then BitVec.ofNat 8 (run.length + 1) :: run.reverse ++ cobsEnc rest [] else cobsEnc rest (b :: run)

/-- COBS decoding of a body without its terminator. -/
def cobsDec : Nat → List Byte → Option (List Byte)
  | 0, _ => none
  | _ + 1, [] => none
  | n + 1, c :: rest =>
    if c = 0x00 then none
    else if rest.length < c.toNat - 1 then none
    else if rest.length = c.toNat - 1 then some rest
    else (cobsDec n (rest.drop (c.toNat - 1))).map fun more => rest.take (c.toNat - 1) ++ [0x00] ++ more

/-- The reference codec. -/
def refCodec : Codec where
  enc p := cobsEnc p []
  dec f := cobsDec f.length f.dropLast

/-- V-CMD-3, V-CMD-4 and V-RSP-5. -/
theorem test_reference_frames : refCodec.enc [0x20, 0x00, 0x46, 0x00, 0x5A, 0x82, 0x96] = [0x02, 0x20, 0x02, 0x46, 0x04, 0x5A, 0x82, 0x96, 0x00] ∧
    refCodec.enc [0x20, 0xFF, 0x9C, 0x00, 0x64, 0x63, 0xCC] = [0x04, 0x20, 0xFF, 0x9C, 0x04, 0x64, 0x63, 0xCC, 0x00] ∧
    refCodec.dec [0x01, 0x02, 0x80, 0x02, 0x4A, 0x01, 0x00] = some [0x00, 0x80, 0x00, 0x4A, 0x00] := by decide

/-! ### States for the tests -/

/-- A fresh engine with these answers of the link. -/
def offline (opens : List OpenResult) (configures : List ConfigResult) (reads : List ReadResult) (writes : List WriteResult) : State :=
  { State.reset with oracle := { opens := opens, configures := configures, reads := reads, writes := writes, drawn := 0 } }

/-- A synchronized engine in this mode, with these answers of the link. -/
def online (mode : Mode) (reads : List ReadResult) (writes : List WriteResult) : State :=
  { offline [] [] reads writes with link := .opened, regime := .blocking, sync := .synced, mode := mode }

/-- A synchronized engine that awaits a response. -/
def waiting (x : Exchange) (reads : List ReadResult) : State :=
  { online .rawConfigured reads [] with busy := true, point := .awaiting x }

/-- OPEN_AND_SYNC in its drain. -/
def draining (reads : List ReadResult) (writes : List WriteResult) : State :=
  { offline [] [.ok] reads writes with
    link := .opened, regime := .drain, sync := .drainingGarbage, busy := true, point := .draining
    txPkt := cmdPacket 0x30 0 0, written := { Written.nothing with crcReg := true, txPkt := true } }

/-- The state of a step that goes on. -/
def after : Host.Outcome State Fault Refusal → State
  | .next s => s
  | .fault _ => State.reset
  | .refused _ => State.reset

/-- The class, code and diagnostics an operation left. -/
def verdict (s : State) : StatusClass × Byte × Word16 × Word16 := (s.status.cls, s.status.code, s.diagA, s.diagB)

/-! ### CRC and the command encoder -/

/-- V-CRC-2, V-CRC-5, V-CRC-9. -/
theorem test_crc_vectors : crc16 [0x31, 0x32, 0x33, 0x34, 0x35, 0x36, 0x37, 0x38, 0x39] 9 = 0x906E ∧ crc16 [0x01] 1 = 0xE1F1 ∧
    crc16 [0, 0, 0, 0, 0] 5 = 0xCF77 ∧ crc16 [] 0 = 0x0000 := by decide +kernel
/-- V-CRC-18: the register after bits 0 to 3. -/
theorem test_crc_bit_trace : crcBits 1 (0xFFFF : Word16) 0x01 = 0x7FFF ∧ crcBits 2 (0xFFFF : Word16) 0x01 = 0xBBF7 ∧
    crcBits 4 (0xFFFF : Word16) 0x01 = 0xE8F1 := by
  decide +kernel
/-- V-CRC-13 with the byte swap of R105. -/
theorem test_crc_byteswap : crc16 [0x20, 0x00, 0x46, 0x00, 0x5A] 5 { Config.params with crcByteswap := true } = 0x9682 ∧
    (buildTrigger 70 90 State.reset { Config.params with crcByteswap := true }).txPkt = [0x20, 0x00, 0x46, 0x00, 0x5A, 0x96, 0x82] := by
  decide +kernel
/-- R77: with the tags of sync-ok and crc-mismatch exchanged, tag 0x05 is the sync-ok. -/
theorem test_kind_tags :
    let P : Params := { Config.params with kindSyncOk := 0x05, kindCrcMismatch := 0x01 }
    decode .rsp [0x05, 0, 0, 0xFF, 0x71] P = .ok (.rspSyncOk 0 0xFF71) ∧ encode (.rspSyncOk 0 0xFF71) P = [0x05, 0, 0, 0xFF, 0x71] ∧
      (after (execRspSyncOk 0 { waiting .echo [] with sync := .awaitingEcho } P)).sync = .synced := by decide
/-- R9: the arguments of `configure` are parameters. -/
theorem test_configure_arguments :
    (openLink (offline [.ok] [.err] [] []) { Config.params with drainMin := 1, drainTimeoutDs := 2 }).state.trace =
      [.linkOpen .ok, .config 1 2 .err] := by decide
/-- V-CMD-1. -/
theorem test_cmdSync : (after (exec (.cmdSync 0x1BA6) State.reset)).txPkt = [0x30, 0, 0, 0, 0, 0x1B, 0xA6] := by decide +kernel
/-- V-CMD-2. -/
theorem test_cmdRaw : (after (exec (.cmdRaw 0x7B37) State.reset)).txPkt = [0x10, 0, 0, 0, 0, 0x7B, 0x37] := by decide +kernel
/-- V-CMD-5. -/
theorem test_cmdTrigger_extremes :
    (after (exec (.cmdTrigger 0x8000 0x7FFF 0xFEFC) State.reset)).txPkt = [0x20, 0x80, 0x00, 0x7F, 0xFF, 0xFE, 0xFC] := by decide +kernel
/-- V-CMD-7. -/
theorem test_cmdTrigger_signed :
    (after (exec (.cmdTrigger 0x8000 0x0001 0x9301) State.reset)).txPkt = [0x20, 0x80, 0x00, 0x00, 0x01, 0x93, 0x01] := by decide +kernel

/-! ### Responses -/

/-- R187: a sensor value of -32768 (V-RX-15). -/
theorem test_rspSensorValue : (after (exec (.rspSensorValue 0x8000 0x4A00) (waiting .reading []))).result = 0x8000 := by decide
/-- V-SYN-13. -/
theorem test_rspSensorValue_as_echo : verdict (after (exec (.rspSensorValue 1 0xD745) (waiting .echo []))) = (.protocolFatal, 0x11, 0x00, 0) := by
  decide
/-- R140. -/
theorem test_rspSyncOk : (after (exec (.rspSyncOk 0 0x9C10) { waiting .echo [] with sync := .awaitingEcho })).sync = .synced := by decide
/-- V-RX-13. -/
theorem test_rspSyncOk_as_reading : verdict (after (exec (.rspSyncOk 0 0x9C10) (waiting .reading []))) = (.protocolFatal, 0x19, 0x01, 0) := by
  decide
/-- R185. -/
theorem test_rspRawAck : (after (exec (.rspRawAck 0 0x7374) (waiting .rawMode []))).rawFlag = true := by decide
/-- V-SYN-12. -/
theorem test_rspRawAck_as_echo : verdict (after (exec (.rspRawAck 0 0x7374) (waiting .echo []))) = (.protocolFatal, 0x11, 0x02, 0) := by decide
/-- R186. -/
theorem test_rspTriggerAck : (after (exec (.rspTriggerAck 0 0x29A8) (waiting .triggerMode []))).mode = .triggerConfigured := by decide
/-- V-MOD-2. -/
theorem test_rspUnknownCommand : verdict (after (exec (.rspUnknownCommand 0 0xA5AD) (waiting .rawMode []))) = (.protocolFatal, 0x17, 0x04, 0) := by
  decide
/-- V-MOD-4. -/
theorem test_rspCrcMismatch :
    verdict (after (exec (.rspCrcMismatch 0 0xFF71) (waiting .triggerMode []))) = (.protocolFatal, 0x18, 0x05, 0) := by decide
/-- R83. -/
theorem test_rspWrongSize : verdict (after (exec (.rspWrongSize 0 0x1015) (waiting .reading []))) = (.protocolFatal, 0x19, 0x06, 0) := by decide
/-- V-RX-14. -/
theorem test_rspUndefinedKind :
    verdict (after (exec (.rspUndefinedKind 0xFF 0 0x003F) (waiting .reading []))) = (.protocolFatal, 0x19, 0xFF, 0) := by decide

/-! ### Requests, with the reference codec where they receive a frame -/

/-- P1: the whole trace of a bring-up. -/
theorem test_openAndSync_trace :
    (hostOp 0x01 (openAndSyncOp refCodec) (offline [.ok] [.ok, .ok]
      [.ok [], .ok [], .ok [0x5A], .ok [0x01], .ok [0x9C], .ok [], .ok [0x02, 0x01, 0x01, 0x03, 0x9C, 0x10, 0x00]]
      [.ok 9, .ok 9, .ok 9, .ok 9])).trace =
    let f : List Byte := [0x02, 0x30, 0x01, 0x01, 0x01, 0x03, 0x1B, 0xA6, 0x00]
    [.linkOpen .ok, .config 0 0 .ok, .tx f (.ok 9), .rx 1 (.ok []), .tx f (.ok 9), .rx 1 (.ok []), .tx f (.ok 9), .rx 1 (.ok [0x5A]),
      .rx 1 (.ok [0x01]), .rx 1 (.ok [0x9C]), .rx 1 (.ok []), .sleep 20, .config 7 10 .ok, .tx f (.ok 9),
      .rx 7 (.ok [0x02, 0x01, 0x01, 0x03, 0x9C, 0x10, 0x00]), .done 0x01 { cls := .none, code := 0x00 } 0 0 0x0000] := by decide +kernel
/-- V-SYN-14. -/
theorem test_openAndSync_soft :
    let s := hostOp 0x01 (openAndSyncOp refCodec) (offline [.ok] [.ok, .ok]
      [.ok [0x5A], .ok [], .ok [0x55, 0x55, 0x55, 0x55, 0x55, 0x55, 0x55], .ok [0x00]] [.ok 9, .ok 9])
    verdict s = (.soft, 0x20, 1, 0) ∧ s.link = .opened ∧ s.regime = .blocking ∧ s.sync = .unsynced := by decide +kernel
/-- V-MOD-1. -/
theorem test_setRawMode :
    let s := hostOp 0x02 (setRawModeOp refCodec) (online .idle [.ok [0x02, 0x02, 0x01, 0x03, 0x73, 0x74, 0x00]] [.ok 9])
    verdict s = (.none, 0x00, 0, 0) ∧ s.mode = .rawConfigured ∧ s.rawFlag = true := by decide +kernel
/-- V-SRC-6. -/
theorem test_setRawMode_crc :
    let s := hostOp 0x02 (setRawModeOp refCodec) (online .rawConfigured [.ok [0x02, 0x02, 0x01, 0x03, 0x73, 0x75, 0x00]] [.ok 9])
    verdict s = (.protocolFatal, 0x16, 0x7375, 0x7374) ∧ s.mode = .idle ∧ s.sync = .unsynced ∧ s.link = .opened := by decide +kernel
/-- V-MOD-7. -/
theorem test_setTriggerMode_signed :
    let s := hostOp 0x03 (setTriggerModeOp refCodec 0x8000 1) (online .idle [.ok [0x02, 0x03, 0x01, 0x03, 0x29, 0xA8, 0x00]] [.ok 9])
    verdict s = (.none, 0x00, 0, 0) ∧ s.mode = .triggerConfigured ∧ s.txFrame = [0x03, 0x20, 0x80, 0x01, 0x04, 0x01, 0x93, 0x01, 0x00] := by
  decide +kernel
/-- V-MOD-6. -/
theorem test_setTriggerMode_thresholds :
    verdict (after (exec (.setTriggerMode 0xFFFF 0xFFFE) (online .idle [] []))) = (.usage, 0x30, 0xFFFF, 0xFFFE) := by decide
/-- V-RX-6. -/
theorem test_readSensorValue_resync :
    let s := hostOp 0x04 (readSensorValueOp refCodec)
      (online .rawConfigured (.ok [0x55, 0x55, 0x55, 0x55, 0x55, 0x55, 0x55] :: (List.replicate 99 (.ok []) ++ [.ok [0x00]])) [])
    verdict s = (.soft, 0x20, 100, 0) ∧ s.sync = .synced ∧ s.mode = .rawConfigured := by decide +kernel
/-- V-RX-7. -/
theorem test_readSensorValue_read_error :
    verdict (hostOp 0x04 (readSensorValueOp refCodec) (online .rawConfigured
      [.ok [0x55, 0x55, 0x55, 0x55, 0x55, 0x55, 0x55], .ok [0x55], .err] [])) = (.linkFatal, 0x05, 0, 1) := by decide +kernel
/-- V-CRC-20. -/
theorem test_crc16 :
    (after (exec (.crc16 5 0xFFFF) { State.reset with reqData := [0x20, 0x00, 0x46, 0x00, 0x5A, 0x77] })).result = 0x8296 := by decide +kernel
/-- V-SES-2. -/
theorem test_setDebug : (after (exec (.setDebug 0 0xFFFE) { State.reset with debug := true })).debug = false := by decide
/-- V-SES-4. -/
theorem test_close :
    (after (exec (.close 0 0) { online .rawConfigured [] [] with rawFlag := true })).trace =
      [.close, .done 0x07 { cls := .none, code := 0x00 } 0 0 0] := by decide
/-- V-SES-6. -/
theorem test_reserved00 : verdict (after (exec (.reserved00 0 0) State.reset)) = (.usage, 0x32, 0x0000, 0) := by decide
/-- V-SES-5. -/
theorem test_reserved08 : verdict (after (exec (.reserved08 0 0 0) State.reset)) = (.usage, 0x32, 0x0008, 0) := by decide
theorem test_reserved10 : verdict (after (exec (.reserved10 15 0 0) State.reset)) = (.usage, 0x32, 0x001F, 0) := by decide
theorem test_reserved20 : verdict (after (exec (.reserved20 1 0 0) State.reset)) = (.usage, 0x32, 0x0021, 0) := by decide
theorem test_reserved40 : verdict (after (exec (.reserved40 0x3F 0 0) State.reset)) = (.usage, 0x32, 0x007F, 0) := by decide
/-- V-SES-7. -/
theorem test_reserved80 : verdict (after (exec (.reserved80 0x7F 0x1234 0x5678) State.reset)) = (.usage, 0x32, 0x00FF, 0) := by decide

/-! ### Witnesses: states and operands that meet the hypotheses of each statement that has some -/

theorem witness_DecodeInvertsEncode : (Instr.cmdTrigger 70 90 0x8296).wellFormed = true ∧ (Instr.rspUndefinedKind 0x07 0 0x4AC9).wellFormed = true ∧
    (Instr.reserved80 0x7F 0xFFFF 0xFFFF).wellFormed = true ∧ Config.params.Unambiguous ∧
    Params.Unambiguous { Config.params with kindSyncOk := 0x05, kindCrcMismatch := 0x01 } ∧
    (Instr.rspSyncOk 0 0xFF71).wellFormed { Config.params with kindSyncOk := 0x05, kindCrcMismatch := 0x01 } = true :=
  ⟨by decide +kernel, by decide +kernel, by decide +kernel, ⟨by decide, by decide⟩, ⟨by decide, by decide⟩, by decide +kernel⟩

theorem witness_EncodeInvertsDecode : decode .cmd [0x10, 0, 0, 0, 0, 0x7B, 0x37] = .ok (.cmdRaw 0x7B37) ∧
    decode .rsp [0xFF, 0, 0, 0x00, 0x3F] = .ok (.rspUndefinedKind 0xFF 0 0x003F) ∧ decode .hreq [0x08, 0, 0, 0, 0] = .ok (.reserved08 0 0 0) := by
  decide

theorem witness_DecodedWordMatchesTableRow : decode .hreq [0xFF, 0xFF, 0xFF, 0xFF, 0xFF] = .ok (.reserved80 0x7F 0xFFFF 0xFFFF) := by decide

/-- Buffers of one length, and a flipped bit at each end of one. -/
theorem witness_CrcAffineAndBitSensitive : ([0x30, 0, 0, 0, 0] : List Byte).length = ([0x10, 0, 0, 0, 0] : List Byte).length ∧
    0 < ([0x30, 0, 0, 0, 0] : List Byte).length ∧ 4 < ([0x30, 0, 0, 0, 0] : List Byte).length ∧ (1 : Nat) ≠ 0 := by decide

/-- A data channel of exactly the length, and a length of zero. -/
theorem witness_Crc16Completes : (5 : Word16).toNat ≤ ({ State.reset with reqData := [0x20, 0x00, 0x46, 0x00, 0x5A] } : State).reqData.length ∧
    (0 : Word16).toNat ≤ State.reset.reqData.length := by decide

theorem witness_CommandPacketIsItsWord : (Instr.cmdTrigger 0x8000 0x7FFF 0xFEFC).format = .cmd ∧
    (Instr.cmdTrigger 0x8000 0x7FFF 0xFEFC).wellFormed = true := by decide +kernel

/-- A state that awaits each response. -/
theorem witness_AwaitedResponseEndsOperation : (waiting .echo []).point = .awaiting .echo ∧ (waiting .rawMode []).point = .awaiting .rawMode ∧
    (waiting .triggerMode []).point = .awaiting .triggerMode ∧ (waiting .reading []).point = .awaiting .reading := by decide

/-- A response of another kind for each operation: the tags on either side of the one it expects. -/
theorem witness_UnexpectedKindIsFatal : (Instr.rspSensorValue 1 0xD745).response = some (0x00, 1) ∧
    (Instr.rspRawAck 0 0x7374).response = some (0x02, 0) ∧ (Instr.rspUndefinedKind 0xFF 0 0x003F).response = some (0xFF, 0) ∧
    (waiting .echo []).point = .awaiting .echo ∧ (0x00 : Byte) ≠ 0x01 ∧ (waiting .triggerMode []).point = .awaiting .triggerMode ∧
    (0x02 : Byte) ≠ 0x03 ∧ (waiting .rawMode []).point = .awaiting .rawMode ∧ (0xFF : Byte) ≠ 0x02 ∧
    (waiting .reading []).point = .awaiting .reading ∧ (0xFF : Byte) ≠ 0x00 := by decide

theorem witness_UnawaitedResponseHasNoEffect : (Instr.rspSyncOk 0 0x9C10).response = some (0x01, 0) ∧ ∀ x, State.reset.point ≠ .awaiting x :=
  ⟨rfl, fun _ h => by cases h⟩

/-- The reserved codes at the ends of their ranges. -/
theorem witness_ReservedRequestIsUsageError : (Instr.reserved00 0 0).requestCode = some 0x00 ∧
    (Instr.reserved08 0 0 0).requestCode = some 0x08 ∧ (0x08 : Byte) ≤ 0x08 ∧ (Instr.reserved80 0x7F 0 0).requestCode = some 0xFF ∧
    (0x08 : Byte) ≤ 0xFF := by decide

/-- The codec port's frame of a response, as the link answers it. -/
theorem takeRead_frame (kind : Byte) (value : Word16) (o : Oracle) (rest : List ReadResult)
    (h : o.reads = .ok (Config.codec.enc (rspPacket kind value)) :: rest) :
    o.takeRead 7 = (.ok (Config.codec.enc (rspPacket kind value)), { o with reads := rest }) := by
  unfold Oracle.takeRead
  rw [h]
  simp only [ReadResult.within]
  rw [List.take_of_length_le (by rw [(frameOf_encoded kind value).1])]

theorem witness_SetRawModeSucceeds : ∃ (f : List Byte) (s : State) (o1 o2 : Oracle), s.sync = .synced ∧
    s.oracle.takeWrite 9 = (.ok 9, o1) ∧ o1.takeRead 7 = (.ok f, o2) ∧ FrameOf f 0x02 0 :=
  ⟨_, online .idle [.ok (Config.codec.enc (rspPacket 0x02 0))] [.ok 9], _, _, rfl, rfl, takeRead_frame 0x02 0 _ [] rfl,
    frameOf_encoded 0x02 0⟩

/-- Thresholds that are equal, and the extreme ones. -/
theorem witness_SetTriggerModeSucceeds : (∃ (f : List Byte) (s : State) (o1 o2 : Oracle), s.sync = .synced ∧
    (5 : Word16).toInt ≤ (5 : Word16).toInt ∧ s.oracle.takeWrite 9 = (.ok 9, o1) ∧ o1.takeRead 7 = (.ok f, o2) ∧ FrameOf f 0x03 0) ∧
    (0x8000 : Word16).toInt ≤ (0x7FFF : Word16).toInt :=
  ⟨⟨_, online .idle [.ok (Config.codec.enc (rspPacket 0x03 0))] [.ok 9], _, _, rfl, by decide, rfl, takeRead_frame 0x03 0 _ [] rfl,
    frameOf_encoded 0x03 0⟩, by decide⟩

theorem witness_ReadSensorValueSucceeds : ∃ (f : List Byte) (s : State) (o : Oracle), s.sync = .synced ∧ s.mode ≠ .idle ∧
    s.oracle.takeRead 7 = (.ok f, o) ∧ FrameOf f 0x00 0xFFFF :=
  ⟨_, online .triggerConfigured [.ok (Config.codec.enc (rspPacket 0x00 0xFFFF))] [], _, rfl, by decide, takeRead_frame 0x00 0xFFFF _ [] rfl,
    frameOf_encoded 0x00 0xFFFF⟩

theorem witness_SequenceErrors : State.reset.sync ≠ .synced ∧ (online .idle [] []).mode = .idle := by decide

/-- Thresholds one apart, at zero and across the sign. -/
theorem witness_ThresholdsOutOfOrderRefused : (online .idle [] []).sync = .synced ∧ (0 : Word16).toInt < (1 : Word16).toInt ∧
    (0xFFFF : Word16).toInt < (0 : Word16).toInt := by decide

/-- A packet of seven bytes, a failed write, a whole one, and the counts at the ends of the range. -/
theorem witness_SendCommandWritesOnce : (cmdPacket 0x30 0 0).length = 7 ∧ ((online .idle [] [.err]).oracle.takeWrite 9).1 = .err ∧
    ((online .idle [] [.ok 9]).oracle.takeWrite 9).1 = .ok 9 ∧ ((online .idle [] [.ok 8]).oracle.takeWrite 9).1 = .ok 8 ∧
    ((online .idle [] [.ok 0]).oracle.takeWrite 9).1 = .ok 0 := by decide

/-- A failed write, and the counts next to the right one. -/
theorem witness_PartialWriteIsFatal : (online .idle [] [.err]).sync = .synced ∧ (70 : Word16).toInt ≤ (90 : Word16).toInt ∧
    ((online .idle [] [.err]).oracle.takeWrite 9).1 = .err ∧ ((online .idle [] [.ok 8]).oracle.takeWrite 9).1 = .ok 8 ∧ (8 : Nat) ≠ 9 ∧
    ((online .idle [] [.ok 0]).oracle.takeWrite 9).1 = .ok 0 := by decide

/-- One answer of the read for each clause: an error, the lengths next to seven, a last byte that is not 0x00, and with a codec that
answers each way, the decode's clauses. -/
theorem witness_ReceivePacketReportsFirstDefect : ((waiting .reading [.err]).oracle.takeRead 7).1 = .err ∧
    ((waiting .reading [.ok [1, 2, 3, 4, 5, 6]]).oracle.takeRead 7).1 = .ok [1, 2, 3, 4, 5, 6] ∧
    ((waiting .reading [.ok [1, 2, 3, 4, 5, 6, 7]]).oracle.takeRead 7).1 = .ok [1, 2, 3, 4, 5, 6, 7] ∧
    ([1, 2, 3, 4, 5, 6, 7] : List Byte)[6]? ≠ some 0x00 ∧ ([2, 1, 1, 3, 0x9C, 0x10, 0] : List Byte)[6]? = some 0x00 ∧
    refCodec.dec [7, 1, 1, 3, 0x9C, 0x10, 0] = none ∧ refCodec.dec [2, 1, 1, 3, 0x9C, 0x10, 0] = some [1, 0, 0, 0x9C, 0x10] ∧
    ({ enc := id, dec := fun _ => some [] } : Codec).dec [2, 1, 1, 3, 0x9C, 0x10, 0] = some [] ∧
    ({ enc := id, dec := fun _ => some [3, 0, 0, 0x29] } : Codec).dec [2, 1, 1, 3, 0x9C, 0x10, 0] = some [3, 0, 0, 0x29] := by decide

set_option maxRecDepth 20000 in
/-- Resync's three outcomes, for the clause on the last byte. -/
theorem witness_ReceivePacketReportsFirstDefect_resync :
    (∃ u, resync (online .rawConfigured (List.replicate 100 (.ok [])) []) = .ok false u) ∧
    (∃ u, resync (online .rawConfigured [.ok [0x55], .ok [0x00]] []) = .ok true u) ∧
    ∃ e u, resync (online .rawConfigured [.err] []) = .raise e u := ⟨⟨_, rfl⟩, ⟨_, rfl⟩, _, _, rfl⟩

theorem misses_nothing : (ReadResult.ok []).Misses := ⟨[], rfl, by decide⟩

/-- A hundred reads that miss, 0x00 at the hundredth, and a hundredth read that fails. -/
theorem witness_ResyncCountsReadAttempts : (∀ r ∈ List.replicate 100 (ReadResult.ok []), r.Misses) ∧
    (List.replicate 100 (ReadResult.ok [])).length = 100 ∧ (online .rawConfigured (List.replicate 100 (.ok []) ++ []) []).oracle.reads =
      List.replicate 100 (.ok []) ++ [] ∧ (List.replicate 99 (ReadResult.ok [])).length < 100 ∧
    (online .rawConfigured (List.replicate 99 (.ok []) ++ .ok (0x00 :: []) :: []) []).oracle.reads =
      List.replicate 99 (.ok []) ++ .ok (0x00 :: []) :: [] ∧
    (online .rawConfigured (List.replicate 99 (.ok []) ++ .err :: []) []).oracle.reads = List.replicate 99 (.ok []) ++ .err :: [] :=
  ⟨fun r hr => (List.eq_of_mem_replicate hr) ▸ misses_nothing, by simp, rfl, by simp, rfl, rfl⟩

/-- The three scans' answers, at their bounds. -/
theorem witness_MisalignedFrameIsLost : (online .rawConfigured [] []).sync = .synced ∧ (online .rawConfigured [] []).mode ≠ .idle ∧
    ([0x55, 0x55, 0x55, 0x55, 0x55, 0x55, 0x55] : List Byte).length = 7 ∧
    ([0x55, 0x55, 0x55, 0x55, 0x55, 0x55, 0x55] : List Byte)[6]? ≠ some 0x00 ∧
    (∀ r ∈ List.replicate 100 (ReadResult.ok []), r.Misses) ∧ (∀ r ∈ List.replicate 99 (ReadResult.ok []), r.Misses) ∧
    (List.replicate 100 (ReadResult.ok [])).length = 100 ∧ (List.replicate 99 (ReadResult.ok [])).length < 100 ∧
    (online .rawConfigured (.ok [0x55, 0x55, 0x55, 0x55, 0x55, 0x55, 0x55] :: (List.replicate 99 (.ok []) ++ .err :: [])) []).oracle.reads =
      .ok [0x55, 0x55, 0x55, 0x55, 0x55, 0x55, 0x55] :: (List.replicate 99 (.ok []) ++ .err :: []) :=
  ⟨rfl, by decide, rfl, by decide, fun r hr => (List.eq_of_mem_replicate hr) ▸ misses_nothing,
    fun r hr => (List.eq_of_mem_replicate hr) ▸ misses_nothing, by simp, by simp, rfl⟩

/-- A receive whose read fails raises. -/
theorem receive_failed_read (t : State) (h : t.oracle.reads = .err :: []) : ∃ e u, receivePacket Config.codec 5 t = .raise e u :=
  ⟨_, _, (receivePacket_eq Config.codec t _ _ [] { t.oracle with reads := [] }
    (by simp only [Oracle.takeRead, h, ReadResult.within]) rfl).1 rfl⟩

/-- A failed open and a failed drain configure; and, for the later calls, a probe answered at its hundredth attempt. -/
theorem witness_FailedOpenEndsBringUp : ((offline [.err .linkLock] [] [] []).oracle.takeOpen).1 = .err .linkLock ∧
    ((offline [.ok] [.err] [] []).oracle.takeOpen).1 = .ok ∧ (((offline [.ok] [.err] [] []).oracle.takeOpen).2.takeConfigure).1 = .err ∧
    (online .idle [] []).link = .opened ∧ ∃ s s' s'' : State, 99 < 100 ∧ (∀ r ∈ [ReadResult.ok [0x01]], r.Speaks) ∧
      (s.oracle.opens = .ok :: [] ∧ s.oracle.configures = .ok :: [] ∧ s.oracle.writes = List.replicate (99 + 1) (.ok 9) ++ [] ∧
        s.oracle.reads = List.replicate 99 (.ok []) ++ .err :: []) ∧
      s'.oracle.reads = List.replicate 99 (.ok []) ++ .ok (0x5A :: []) :: ([.ok [0x01]] ++ .err :: []) ∧
      s''.oracle.configures = .ok :: .err :: [] ∧
      s''.oracle.reads = List.replicate 99 (.ok []) ++ .ok (0x5A :: []) :: ([.ok [0x01]] ++ .ok [] :: []) :=
  ⟨rfl, rfl, rfl, rfl, offline [.ok] [.ok] _ _, offline [.ok] [.ok] _ [], offline [.ok] [.ok, .err] _ [], by decide,
    fun r hr => by rw [List.mem_singleton.1 hr]; exact ⟨_, _, rfl⟩, ⟨rfl, rfl, rfl, rfl⟩, rfl, rfl, rfl⟩

/-- An echo whose write fails, falls short by one byte, or is whole and followed by a failed read or by another kind. -/
theorem witness_FailedOpenEndsBringUp_echo : (∃ s s' s'' : State, (∀ r ∈ [ReadResult.ok [0x01]], r.Speaks) ∧
      (s.oracle.opens = .ok :: [] ∧ s.oracle.configures = .ok :: .ok :: [] ∧ s.oracle.writes = List.replicate (99 + 1) (.ok 9) ++ .ok 9 :: [] ∧
        s.oracle.reads = List.replicate 99 (.ok []) ++ .ok (0x5A :: []) :: ([.ok [0x01]] ++ .ok [] :: .err :: [])) ∧
      s'.oracle.writes = List.replicate (99 + 1) (.ok 9) ++ .err :: [] ∧ s''.oracle.writes = List.replicate (99 + 1) (.ok 9) ++ .ok 8 :: []) ∧
    (∀ t : State, t.oracle.reads = .err :: [] → ∃ e u, receivePacket Config.codec 5 t = .raise e u) ∧
    FrameOf (Config.codec.enc (rspPacket 0x02 0)) 0x02 0 ∧ (0x02 : Byte) ≠ 0x01 :=
  ⟨⟨offline [.ok] [.ok, .ok] _ _, offline [.ok] [.ok, .ok] [] _, offline [.ok] [.ok, .ok] [] _,
      fun r hr => by rw [List.mem_singleton.1 hr]; exact ⟨_, _, rfl⟩, ⟨rfl, rfl, rfl, rfl⟩, rfl, rfl⟩,
    receive_failed_read, frameOf_encoded 0x02 0, by decide⟩

/-- A hundredth send that fails, and one that falls short by one byte. -/
theorem witness_FailedOpenEndsBringUp_probeWrite : ∃ s s' : State, 99 < 100 ∧ s.oracle.opens = .ok :: [] ∧ s.oracle.configures = .ok :: [] ∧
    s.oracle.reads = List.replicate 99 (.ok []) ++ [] ∧ s.oracle.writes = List.replicate 99 (.ok 9) ++ .err :: [] ∧
    s'.oracle.writes = List.replicate 99 (.ok 9) ++ .ok 8 :: [] :=
  ⟨offline [.ok] [.ok] _ _, offline [.ok] [.ok] [] _, by decide, rfl, rfl, rfl, rfl, rfl⟩

/-- A hundred attempts without an answer, an answer and a failed read at the hundredth, and a hundredth send that falls short. -/
theorem witness_ProbeCountsAttempts : (cmdPacket 0x30 0 0).length = 7 ∧
    (offline [] [] (List.replicate 100 (.ok [])) (List.replicate 100 (.ok 9))).oracle.writes = List.replicate 100 (.ok 9) ++ [] ∧
    (offline [] [] (List.replicate 100 (.ok [])) (List.replicate 100 (.ok 9))).oracle.reads = List.replicate 100 (.ok []) ++ [] ∧
    (100 : Nat) = 99 + 1 ∧ (offline [] [] (List.replicate 99 (.ok []) ++ [.ok [0x5A]]) []).oracle.reads =
      List.replicate 99 (.ok []) ++ .ok (0x5A :: []) :: [] ∧
    (offline [] [] (List.replicate 99 (.ok []) ++ [.err]) []).oracle.reads = List.replicate 99 (.ok []) ++ .err :: [] ∧ (99 : Nat) < 100 ∧
    (offline [] [] [] (List.replicate 99 (.ok 9) ++ .ok 8 :: [])).oracle.writes = List.replicate 99 (.ok 9) ++ .ok 8 :: [] :=
  ⟨rfl, by simp [offline], by simp [offline], rfl, rfl, rfl, by decide, rfl⟩

/-- P5, and the same from a session that is open. -/
theorem witness_SilentSensorExhaustsBringUp : ∃ s s' : State, (s.link = .closed ∧ s.oracle.opens = .ok :: [] ∧ s.oracle.configures = .ok :: [] ∧
      s.oracle.reads = List.replicate 100 (.ok []) ++ [] ∧ s.oracle.writes = List.replicate 100 (.ok 9) ++ []) ∧
    s'.link = .opened ∧ s'.oracle = s.oracle :=
  ⟨offline [.ok] [.ok] (List.replicate 100 (.ok []) ++ []) (List.replicate 100 (.ok 9) ++ []),
    { offline [.ok] [.ok] (List.replicate 100 (.ok []) ++ []) (List.replicate 100 (.ok 9) ++ []) with link := .opened },
    ⟨rfl, rfl, rfl, rfl, rfl⟩, rfl, rfl⟩

/-- The probe answered at the hundredth attempt, with garbage to drain. -/
theorem witness_OpenAndSyncSucceeds : ∃ (s : State) (f : List Byte), 99 < 100 ∧ (∀ r ∈ [ReadResult.ok [0x01], .ok [0x9C]], r.Speaks) ∧
    FrameOf f 0x01 0 ∧ s.oracle.opens = .ok :: [] ∧ s.oracle.configures = .ok :: .ok :: [] ∧
    s.oracle.writes = List.replicate (99 + 1) (.ok 9) ++ .ok 9 :: [] ∧
    s.oracle.reads = List.replicate 99 (.ok []) ++ .ok (0x5A :: []) :: ([.ok [0x01], .ok [0x9C]] ++ .ok [] :: .ok f :: []) :=
  ⟨offline [.ok] [.ok, .ok] _ _, _, by decide, by
    intro r hr
    simp only [List.mem_cons, List.not_mem_nil, or_false] at hr
    rcases hr with rfl | rfl
    · exact ⟨_, _, rfl⟩
    · exact ⟨_, _, rfl⟩, frameOf_encoded 0x01 0, rfl, rfl, rfl, rfl⟩

theorem witness_DrainHasNoBound : ([ReadResult.ok [0x01]] : List ReadResult) ≠ [] ∧ (∀ r ∈ [ReadResult.ok [0x01]], r.Speaks) ∧
    (draining [.ok [0x01]] []).point = .draining ∧ (draining [.ok [0x01]] []).busy = true ∧
    (draining [.ok [0x01]] []).written.txPkt = true ∧ (draining [.ok [0x01]] []).resets = [] ∧
    (draining [.ok [0x01]] []).oracle.reads = [.ok [0x01]] :=
  ⟨by decide, fun r hr => by rw [List.mem_singleton.1 hr]; exact ⟨_, _, rfl⟩, rfl, rfl, rfl, rfl, rfl⟩

/-- A drain for each clause: one whose read fails, one whose configure fails, and one that ends in a sync-ok. -/
theorem witness_ResumedDrainEndsBringUp : ∃ (s s' s'' : State) (f : List Byte), (∀ r ∈ [ReadResult.ok [0x01]], r.Speaks) ∧
    (s.point = .draining ∧ s.written.txPkt = true ∧ s.resets = [] ∧ s.oracle.reads = [.ok [0x01]] ++ .err :: []) ∧
    (s'.point = .draining ∧ s'.written.txPkt = true ∧ s'.resets = [] ∧ s'.oracle.reads = [.ok [0x01]] ++ .ok [] :: [] ∧
      s'.oracle.configures = .err :: []) ∧
    (s''.point = .draining ∧ s''.written.txPkt = true ∧ s''.resets = [] ∧ s''.txPkt = cmdPacket 0x30 0 0 ∧
      s''.oracle.reads = [.ok [0x01]] ++ .ok [] :: .ok f :: [] ∧ s''.oracle.configures = .ok :: [] ∧ s''.oracle.writes = .ok 9 :: [] ∧
      FrameOf f 0x01 0) :=
  ⟨draining [.ok [0x01], .err] [], { draining [] [] with oracle := { Oracle.fresh with reads := [.ok [0x01], .ok []], configures := [.err] } },
    draining [.ok [0x01], .ok [], .ok (Config.codec.enc (rspPacket 0x01 0))] [.ok 9], _,
    fun r hr => by rw [List.mem_singleton.1 hr]; exact ⟨_, _, rfl⟩, ⟨rfl, rfl, rfl, rfl⟩, ⟨rfl, rfl, rfl, rfl, rfl⟩,
    ⟨rfl, rfl, rfl, rfl, rfl, rfl, rfl, frameOf_encoded 0x01 0⟩⟩

/-- The same four echoes, in a step from the drain. -/
theorem witness_ResumedDrainEndsBringUp_echo : (∃ s s' s'' : State,
      (s.point = .draining ∧ s.written.txPkt = true ∧ s.resets = [] ∧ s.txPkt = cmdPacket 0x30 0 0 ∧
        s.oracle.reads = [.ok [0x01]] ++ .ok [] :: .err :: [] ∧ s.oracle.configures = .ok :: [] ∧ s.oracle.writes = .ok 9 :: []) ∧
      s'.oracle.writes = .err :: [] ∧ s''.oracle.writes = .ok 8 :: []) ∧
    (∀ t : State, t.oracle.reads = .err :: [] → ∃ e u, receivePacket Config.codec 5 t = .raise e u) ∧
    FrameOf (Config.codec.enc (rspPacket 0x00 7)) 0x00 7 ∧ (0x00 : Byte) ≠ 0x01 :=
  ⟨⟨draining [.ok [0x01], .ok [], .err] [.ok 9], draining [] [.err], draining [] [.ok 8], ⟨rfl, rfl, rfl, rfl, rfl, rfl, rfl⟩, rfl, rfl⟩,
    receive_failed_read, frameOf_encoded 0x00 7, by decide⟩

/-- An OPEN_AND_SYNC whose open fails (V-SYN-4), and one whose drain fails in a later step. -/
theorem witness_FailedBringUpLeavesUnsynced : (∃ t : State, (offline [.err .linkLock] [] [] []).EndsIn 0x01 t ∧ t.status.cls ≠ .none) ∧
    ∃ t : State, (draining [.err] []).EndsIn 0x01 t ∧ t.status.cls ≠ .none :=
  ⟨⟨_, ⟨rfl, .inl ⟨.openAndSync 0 0, rfl, rfl⟩⟩, by decide⟩, ⟨_, ⟨rfl, .inr ⟨rfl, rfl, rfl⟩⟩, by decide⟩⟩

/-- A code of each class, and an operation other than OPEN_AND_SYNC. -/
theorem witness_OutcomeSetsStatus : ErrorCode.linkOpen.cls = .linkFatal ∧ ErrorCode.outOfSync.cls = .protocolFatal ∧
    ErrorCode.frameDiscarded.cls = .soft ∧ (0x04 : Byte) ≠ 0x01 ∧ ErrorCode.illegalOp.cls = .usage := by decide

theorem witness_OneDonePerRequest : (Instr.openAndSync 0 0).requestCode = some 0x01 ∧ (Instr.reserved80 0x7F 0 0).requestCode = some 0xFF ∧
    (draining [.err] []).resets = [] ∧ (draining [.err] []).point.op = some 0x01 ∧ (waiting .reading [.err]).point.op = some 0x04 ∧
    ∃ t, step (draining [.err] []) = .next t := ⟨by decide, by decide, rfl, rfl, rfl, _, rfl⟩

/-- A reading whose read fails (V-RX-1), in one step and in a later one. -/
theorem witness_FatalErrorDesynchronizes : (∃ t : State, (online .rawConfigured [.err] []).EndsIn 0x04 t ∧ t.status.cls = .linkFatal) ∧
    ∃ t : State, (waiting .reading [.err]).EndsIn 0x04 t ∧ t.status.cls = .linkFatal :=
  ⟨⟨_, ⟨rfl, .inl ⟨.readSensorValue 0 0, rfl, rfl⟩⟩, rfl⟩, ⟨_, ⟨rfl, .inr ⟨rfl, rfl, rfl⟩⟩, rfl⟩⟩

theorem witness_OperationsRaiseTheirCodes : (∃ t : State, (online .idle [] []).EndsIn 0x07 t) ∧
    ∃ t : State, (draining [.err] []).EndsIn 0x01 t :=
  ⟨⟨_, rfl, .inl ⟨.close 0 0, rfl, rfl⟩⟩, ⟨_, rfl, .inr ⟨rfl, rfl, rfl⟩⟩⟩

/-- The codec port's frame of SYNC is some nine bytes. -/
theorem codec_shape : ∃ (c0 c1 c2 c3 c4 c5 c6 c7 c8 : Byte), Config.codec = { Config.codec with
    enc := fun p => if p = cmdPacket 0x30 0 0 then [c0, c1, c2, c3, c4, c5, c6, c7, c8] else Config.codec.enc p } := by
  have h := encoded_length 0x30 0 0
  match hl : Config.codec.enc (cmdPacket 0x30 0 0), h with
  | [c0, c1, c2, c3, c4, c5, c6, c7, c8], _ =>
    refine ⟨c0, c1, c2, c3, c4, c5, c6, c7, c8, ?_⟩
    have : Config.codec.enc = fun p =>
        if p = cmdPacket 0x30 0 0 then [c0, c1, c2, c3, c4, c5, c6, c7, c8] else Config.codec.enc p := by
      funext p
      split
      · rename_i hp; rw [hp, hl]
      · rfl
    exact congrArg (fun f => ({ Config.codec with enc := f } : Codec)) this
set_option maxRecDepth 20000 in
/-- A bring-up that loses its echo's frame (V-SYN-14). -/
theorem witness_SoftErrorKeepsSynchronization_bringUp : ∃ t : State, (offline [.ok] [.ok, .ok]
      [.ok [0x5A], .ok [], .ok [0x55, 0x55, 0x55, 0x55, 0x55, 0x55, 0x55], .ok [0x00]] [.ok 9, .ok 9]).EndsIn 0x01 t ∧
    t.status.cls = .soft := by
  obtain ⟨c0, c1, c2, c3, c4, c5, c6, c7, c8, h⟩ := codec_shape
  refine ⟨_, ⟨?_, .inl ⟨.openAndSync 0 0, rfl, rfl⟩⟩, ?_⟩ <;> rw [h] <;> rfl

/-- A reading that loses its frame (V-RX-18). -/
theorem witness_SoftErrorKeepsSynchronization : (0x04 : Byte) ≠ 0x01 ∧
    ∃ t : State, (online .rawConfigured [.ok [0x55, 0x55, 0x55, 0x55, 0x55, 0x55, 0x55], .ok [0x00]] []).EndsIn 0x04 t ∧
      t.status.cls = .soft := ⟨by decide, _, ⟨rfl, .inl ⟨.readSensorValue 0 0, rfl, rfl⟩⟩, rfl⟩

theorem witness_UsageErrorTouchesNothing : ∃ t : State, State.reset.EndsIn 0x02 t ∧ t.status.cls = .usage :=
  ⟨_, ⟨rfl, .inl ⟨.setRawMode 0 0, rfl, rfl⟩⟩, rfl⟩

/-- A request whose code meets every condition of the frames at once. -/
theorem witness_RequestFrames : (∃ t : State, State.reset.RunsTo 0x00 t) ∧
    (∀ op ∈ ([0x01, 0x02, 0x03, 0x04, 0x05, 0x06, 0x07] : List Byte), (0x00 : Byte) ≠ op) ∧ ∃ t : State, (waiting .reading [.err]).RunsTo 0x04 t :=
  ⟨⟨_, .inl ⟨.reserved00 0 0, rfl, rfl⟩⟩, by decide, _, .inr ⟨rfl, rfl, rfl⟩⟩

/-- A state for each clause. -/
theorem witness_StepRunsDecodedInstruction : ∃ s1 s2 s3 s4 : State,
    (s1.resets = [] ∧ s1.point = .idle ∧ s1.busy = false ∧ s1.requests = ⟨0x0600000001, []⟩ :: [] ∧
      decode .hreq (beBytes 5 (0x0600000001 : BitVec 40).toNat) = .ok (.setDebug 0 1)) ∧
    (s2.resets = [] ∧ s2.point = .building [0x30, 0, 0, 0, 0, 0x1B, 0xA6] ∧
      decode .cmd [0x30, 0, 0, 0, 0, 0x1B, 0xA6] = .ok (.cmdSync 0x1BA6)) ∧
    (s3.resets = [] ∧ s3.point = .awaiting .echo ∧ (∃ t, receivePacket Config.codec 5 s3 = .ok (rspPacket 0x01 0) t) ∧
      decode .rsp (rspPacket 0x01 0) = .ok (.rspSyncOk 0 0x9C10)) ∧
    (s4.resets = [] ∧ s4.point = .awaiting .echo ∧ ∃ e t, receivePacket Config.codec 5 s4 = .raise e t) :=
  ⟨{ State.reset with requests := [⟨0x0600000001, []⟩] }, { State.reset with point := .building [0x30, 0, 0, 0, 0, 0x1B, 0xA6] },
    waiting .echo [.ok (Config.codec.enc (rspPacket 0x01 0))], waiting .echo [.err],
    ⟨rfl, rfl, rfl, rfl, by decide⟩, ⟨rfl, rfl, by decide⟩,
    ⟨rfl, rfl, ⟨_, receivePacket_frame _ _ _ 0x01 0 _ (takeRead_frame 0x01 0 _ [] rfl) (frameOf_encoded 0x01 0).1 (frameOf_encoded 0x01 0).2.1
      (frameOf_encoded 0x01 0).2.2⟩, by decide +kernel⟩,
    ⟨rfl, rfl, _, _, rfl⟩⟩

theorem witness_AwaitingStepIsRestOfRequest : (waiting .reading [.err]).resets = [] ∧ (waiting .reading [.err]).point = .awaiting .reading ∧
    (draining [.err] []).resets = [] ∧ (draining [.err] []).point = .draining ∧ (draining [.err] []).written.txPkt = true :=
  ⟨rfl, rfl, rfl, rfl, rfl⟩

/-- Each of the three requests from where it awaits its response, with a read that fails; and one with a response of another kind. -/
theorem witness_AwaitingStepIsRestOfRequest_request : (∃ (s : State) (o : Oracle), s.sync = .synced ∧ s.resets = [] ∧
      s.oracle.takeWrite 9 = (.ok 9, o) ∧ o.reads = .err :: [] ∧ (5 : Word16).toInt ≤ (5 : Word16).toInt) ∧
    (∃ s : State, s.sync = .synced ∧ s.mode ≠ .idle ∧ s.oracle.reads = .err :: []) ∧
    (∀ t : State, t.oracle.reads = .err :: [] → ∃ e u, receivePacket Config.codec 5 t = .raise e u) ∧
    (∃ (s u : State), s.sync = .synced ∧ s.mode ≠ .idle ∧
      receivePacket Config.codec 5 { s with busy := true, point := .awaiting .reading } = .ok (rspPacket 0x01 0) u) ∧ (0x01 : Byte) ≠ 0x00 :=
  ⟨⟨online .idle [.err] [.ok 9], _, rfl, rfl, rfl, rfl, by decide⟩, ⟨online .rawConfigured [.err] [], rfl, by decide, rfl⟩,
    receive_failed_read, ⟨online .rawConfigured [.ok (Config.codec.enc (rspPacket 0x01 0))] [], _, rfl, by decide,
      receivePacket_frame _ _ _ 0x01 0 _ (takeRead_frame 0x01 0 _ [] rfl) (frameOf_encoded 0x01 0).1 (frameOf_encoded 0x01 0).2.1
        (frameOf_encoded 0x01 0).2.2⟩, by decide⟩

/-- A busy engine with an offer, here in its drain, and a free one without. -/
theorem witness_BusyPortTakesNoRequest : (∃ t : State, (draining [.ok [0x01]] []).busy = true ∧ (draining [.ok [0x01]] []).resets = [] ∧
    step { draining [.ok [0x01]] [] with requests := [⟨0, []⟩] } = .next t) ∧ State.reset.resets = [] ∧ State.reset.point = .idle ∧
    State.reset.requests = [] := ⟨⟨_, rfl, rfl, rfl⟩, rfl, rfl, rfl⟩

/-- Reset before a step of the drain, and inside one: of the three events of its step, reset comes after two. -/
theorem witness_ResetAtAnyTime : ({ draining [] [] with resets := [0] } : State).resets = 0 :: [] ∧
    ∃ u, ({ draining [.ok [0x01], .err] [] with resets := [3] } : State).resets = (2 + 1) :: [] ∧
      stepRunning { draining [.ok [0x01], .err] [] with resets := [3] } = .next u ∧
      2 < u.trace.length - (draining [.ok [0x01], .err] []).trace.length := ⟨rfl, _, rfl, rfl, by decide⟩

/-- As before, and a step that reset does not cut off, with three moments to go; and a request whose events say what it took. -/
theorem witness_ResetLeavesTheWorld : (∃ u, stepRunning { draining [.ok [0x01], .err] [] with resets := [3] } = .next u ∧
      2 < (({ draining [.ok [0x01], .err] [] with resets := [3] } : State).recorded u).length) ∧
    (∃ u, stepRunning { draining [.ok [0x01], .err] [] with resets := [7] } = .next u ∧
      (({ draining [.ok [0x01], .err] [] with resets := [7] } : State).recorded u).length ≤ 6) ∧
    State.reset.resets = [] ∧ (Instr.readSensorValue 0 0).requestCode = some 0x04 ∧ (0x04 : Byte) ≠ 0x05 ∧
    ∃ u, exec (.readSensorValue 0 0) (online .rawConfigured [.err] []) = .next u :=
  ⟨⟨_, rfl, by decide⟩, ⟨_, rfl, by decide⟩, rfl, rfl, by decide, _, rfl⟩

/-- R240: reset inside the scan of a reading, after the frame's read and one read of the scan. Their answers are taken, the request is off the
port, no DONE is recorded, and the next request finds the engine as reset leaves it. -/
theorem test_reset_inside_operation :
    let s : State := { online .rawConfigured [.ok [0x55, 0x55, 0x55, 0x55, 0x55, 0x55, 0x55], .ok [0x55], .ok [0x00]] [] with
      requests := [⟨0x0400000000, []⟩, ⟨0x0700000000, []⟩], resets := [3] }
    after (step s) = { State.reset with requests := [⟨0x0700000000, []⟩], oracle := { Oracle.fresh with reads := [.ok [0x00]] } } := by decide

/-- A step that runs whole before a later reset, and two that stop. -/
theorem witness_ResetLeavesTheWorld_later : (∃ u, step { draining [.ok [0x01], .err] [] with resets := [] } = .next u ∧
      (({ draining [.ok [0x01], .err] [] with resets := [7] } : State).recorded u).length ≤ 6) ∧
    (∃ f, step { draining [] [] with written := Written.nothing, resets := [] } = .fault f) ∧
    ∃ r, step { State.reset with point := .building [], resets := [] } = .refused r :=
  ⟨⟨_, rfl, by decide⟩, ⟨_, rfl⟩, _, rfl⟩

theorem witness_UnwrittenPacketFaults : ({ draining [] [] with written := Written.nothing, resets := [2] } : State).resets.head? ≠ some 0 ∧
    ({ draining [] [] with written := Written.nothing } : State).point = .draining ∧
    ({ draining [] [] with written := Written.nothing } : State).written.txPkt = false := ⟨by decide, rfl, rfl⟩

/-- The drain meets the invariant, and a step goes on from it. -/
theorem witness_StepKeepsInvariant : (draining [.ok [0x01]] []).Inv ∧ ∃ t, step (draining [.ok [0x01]] []) = .next t :=
  ⟨⟨rfl, ⟨rfl, rfl, rfl, rfl, rfl, rfl⟩, by decide, by decide, .inl rfl, ⟨fun _ => rfl, (fun h => by cases h), (fun h => by cases h),
    (fun h => by cases h)⟩⟩, _, rfl⟩

/-- An engine with an open link, as its trace says, that a step goes on from. -/
theorem witness_StepKeepsTraceLegal : ∃ s : State, s.Inv ∧ s.TraceLegal ∧ s.LinkDisciplined ∧ s.link = .opened ∧ ∃ t, step s = .next t :=
  ⟨{ draining [.ok [0x01]] [] with trace := [.linkOpen .ok, .config 0 0 .ok] },
    ⟨rfl, ⟨rfl, rfl, rfl, rfl, rfl, rfl⟩, by decide, by decide, .inl rfl, ⟨fun _ => rfl, (fun h => by cases h), (fun h => by cases h),
      (fun h => by cases h)⟩⟩, by
      intro e he
      simp only [List.mem_cons, List.not_mem_nil, or_false] at he
      rcases he with rfl | rfl
      · trivial
      · exact .inl ⟨rfl, rfl⟩, rfl, rfl, _, rfl⟩

/-- The same state for the link discipline. -/
theorem witness_StepKeepsLinkDiscipline : ∃ s : State, s.Inv ∧ s.LinkDisciplined ∧ ∃ t, step s = .next t :=
  ⟨State.reset, ⟨rfl, ⟨by decide, by decide, by decide, by decide⟩, by decide, by decide, .inl rfl, ⟨by decide, by decide, by decide,
    by decide⟩⟩, rfl, _, rfl⟩

/-- A command at the encoder that decodes. -/
theorem witness_StepFromInvariantAnswers : ∃ s : State, s.Inv ∧ s.point = .building [0x10, 0, 0, 0, 0, 0x7B, 0x37] ∧
    ∀ command, s.point = .building command → ∃ i, decode .cmd command = .ok i :=
  ⟨{ State.reset with point := .building [0x10, 0, 0, 0, 0, 0x7B, 0x37] },
    ⟨rfl, ⟨by decide, by decide, by decide, by decide⟩, by decide, by decide, .inl rfl, ⟨by decide, by decide, by decide, by decide⟩⟩, rfl, by
      intro command h
      cases h
      exact ⟨.cmdRaw 0x7B37, by decide⟩⟩

/-- Two states that differ in all three fields. -/
theorem witness_UnreadFieldsDoNotMatter : ∃ s t : State, s.unseen = t.unseen ∧ s.debug ≠ t.debug ∧ s.rawFlag ≠ t.rawFlag ∧ s.regime ≠ t.regime :=
  ⟨State.reset, { State.reset with debug := true, rawFlag := true, regime := .drain }, rfl, by decide, by decide, by decide⟩

/-- A step that takes an awaited response of this kind. -/
theorem step_response (x : Exchange) (kind : Byte) (value : Word16) (s : State) (hr : s.resets = []) (hp : s.point = .awaiting x)
    (ho : s.oracle.reads = [.ok (Config.codec.enc (rspPacket kind value))]) :
    ∃ u, step s = .next (complete x.op (judge x kind value u)) ∧ u.rawFlag = s.rawFlag ∧ u.sync = s.sync ∧ u.mode = s.mode := by
  obtain ⟨h1, h2, h3⟩ := frameOf_encoded kind value
  obtain ⟨i, hd, hi⟩ := decode_response kind value
  have hrec := receivePacket_frame Config.codec s _ kind value _ (takeRead_frame kind value _ [] ho) h1 h2 h3
  generalize hu : ({ s.holding (Config.codec.enc (rspPacket kind value)) kind value with
    oracle := { s.oracle with reads := [] }, trace := s.trace ++ [.rx 7 (.ok (Config.codec.enc (rspPacket kind value)))]
    written := { s.written with rxFrame := true, rxPkt := true, crcReg := true } } : State) = u at hrec
  refine ⟨u, ?_, by rw [← hu]; rfl, by rw [← hu]; rfl, by rw [← hu]; rfl⟩
  have hup : u.point = .awaiting x := by rw [← hu]; exact hp
  simp only [step, stepEngine, hr, stepRunning, hp, stepAwaiting, Config.rspLen, hrec, hd,
    exec_response i kind value u hi, respond, hup]

/-- A flag already set, and a step that sets it. -/
theorem witness_RawFlagIsSticky : (∃ s t : State, s.resets = [] ∧ step s = .next t ∧ s.rawFlag = true) ∧
    ∃ s t : State, s.resets = [] ∧ step s = .next t ∧ s.rawFlag = false ∧ t.rawFlag = true := by
  obtain ⟨u, hu, -⟩ := step_response .rawMode 0x02 0 (waiting .rawMode [.ok (Config.codec.enc (rspPacket 0x02 0))]) rfl rfl rfl
  exact ⟨⟨{ State.reset with rawFlag := true }, _, rfl, rfl, rfl⟩, ⟨_, _, rfl, hu, rfl, rfl⟩⟩

/-- The step that ends a bring-up, from a state that is not synchronized. -/
theorem witness_OnlyBringUpSynchronizes : ∃ s t : State, s.resets = [] ∧ step s = .next t ∧ s.sync ≠ .synced ∧ t.sync = .synced := by
  obtain ⟨u, hu, -⟩ := step_response .echo 0x01 0
    { waiting .echo [.ok (Config.codec.enc (rspPacket 0x01 0))] with sync := .awaitingEcho } rfl rfl rfl
  exact ⟨_, _, rfl, hu, by decide, rfl⟩

/-- Each way the mode moves: to trigger by its acknowledgement, and to idle by a CLOSE and by a fatal error. -/
theorem witness_ModeTransitions : (∃ s t : State, s.resets = [] ∧ step s = .next t ∧ t.mode ≠ s.mode ∧ t.mode = .triggerConfigured) ∧
    (∃ s t : State, s.resets = [] ∧ step s = .next t ∧ t.mode ≠ s.mode ∧ t.mode = .idle) := by
  obtain ⟨u, hu, -⟩ := step_response .triggerMode 0x03 0 (waiting .triggerMode [.ok (Config.codec.enc (rspPacket 0x03 0))]) rfl rfl rfl
  refine ⟨⟨_, _, rfl, hu, (by show Mode.triggerConfigured ≠ Mode.rawConfigured; decide), rfl⟩, ⟨{ online .rawConfigured [] [] with requests := [⟨0x0700000000, []⟩] }, _, rfl, rfl, by decide, rfl⟩⟩

theorem witness_CodecPortObeysContract : (rspPacket 0x01 0).length = 5 ∧ (cmdPacket 0x30 0 0).length = 7 := ⟨rfl, rfl⟩

end Sys2Proof.Tests
end

section
/-! SUPPORT. The engine's invariant (10_state.md R38): how each of its parts is met, and that it speaks of the engine's own fields alone. -/

namespace Sys2Proof.Machine

/-! ### The conditions between operations -/

/-- An unsynchronized, idle engine meets all four conditions of R38. -/
theorem State.betweenOps_of_unsynced {s : State} (hs : s.sync = .unsynced) (hm : s.mode = .idle) : s.BetweenOps where
  synced h := by rw [hs] at h; cases h
  configured h := absurd hm h
  settled := .inl hs
  closed _ := ⟨hs, hm⟩

/-- A synchronized engine meets them where its session is open and blocking, whatever its mode. -/
theorem State.betweenOps_of_synced {s : State} (hl : s.link = .opened) (hr : s.regime = .blocking) (hs : s.sync = .synced) :
    s.BetweenOps where
  synced _ := ⟨hl, hr⟩
  configured _ := hs
  settled := .inr hs
  closed h := by rw [hl] at h; cases h

/-- The conditions speak of the four session fields alone. -/
theorem State.BetweenOps.of_session_eq {s t : State} (h : s.BetweenOps) (hl : t.link = s.link) (hr : t.regime = s.regime)
    (hs : t.sync = s.sync) (hm : t.mode = s.mode) : t.BetweenOps where
  synced := by rw [hl, hr, hs]; exact h.synced
  configured := by rw [hm, hs]; exact h.configured
  settled := by rw [hs]; exact h.settled
  closed := by rw [hl, hs, hm]; exact h.closed

theorem State.desync_betweenOps (s : State) : s.desync.BetweenOps := State.betweenOps_of_unsynced rfl rfl

/-- An error's effect keeps a synchronized engine within R38: it stays synchronized or is desynchronized (R216 to R218). -/
theorem raiseEffect_betweenOps (op : Byte) (e : Raise) {s : State} (hl : s.link = .opened) (hr : s.regime = .blocking)
    (hs : s.sync = .synced) : (raiseEffect op e s).BetweenOps := by
  rcases raiseEffect_spec op e s with ⟨h, -⟩ | ⟨h, -⟩ <;> rw [h]
  · exact s.desync_betweenOps
  · exact State.betweenOps_of_synced hl hr hs

@[simp] theorem raiseEffect_syncCount (op : Byte) (e : Raise) (s : State) : (raiseEffect op e s).syncCount = s.syncCount := by
  rcases raiseEffect_spec op e s with ⟨h, -⟩ | ⟨h, -⟩
  · rw [h, State.desync_syncCount]
  · rw [h]

@[simp] theorem raiseEffect_resyncCount (op : Byte) (e : Raise) (s : State) : (raiseEffect op e s).resyncCount = s.resyncCount := by
  rcases raiseEffect_spec op e s with ⟨h, -⟩ | ⟨h, -⟩
  · rw [h, State.desync_resyncCount]
  · rw [h]

/-- A fatal error desynchronizes, whatever the operation (R216). -/
theorem raiseEffect_fatal (op : Byte) (e : Raise) (s : State) (h : e.code.cls = .linkFatal ∨ e.code.cls = .protocolFatal) :
    raiseEffect op e s = s.desync := by
  rcases h with h | h <;> simp only [raiseEffect, h]

/-! ### The invariant at each point -/

theorem Status.success_consistent : Status.success.Consistent := .inl rfl

theorem Status.ofError_consistent (c : ErrorCode) : (Status.ofError c).Consistent := .inr ⟨c, rfl⟩

theorem State.Inv.betweenOps_of_idle {s : State} (h : s.Inv) (hp : s.point = .idle) : s.BetweenOps := by
  simpa only [State.AtPoint, hp] using h.atPoint

theorem State.Inv.betweenOps_of_building {s : State} {command : List Byte} (h : s.Inv) (hp : s.point = .building command) :
    s.BetweenOps := by
  simpa only [State.AtPoint, hp] using h.atPoint

/-- In the drain the link is open and the packet to send is written (R131). -/
theorem State.Inv.link_txPkt_of_draining {s : State} (h : s.Inv) (hp : s.point = .draining) :
    s.link = .opened ∧ s.written.txPkt = true := by
  have hat := h.atPoint
  simp only [State.AtPoint, hp] at hat
  obtain ⟨hlink, -, -, -, hw, -⟩ := hat
  exact ⟨hlink, hw⟩

/-- Where a response is awaited the session is open and blocking, and but for the echo it is synchronized. -/
theorem State.Inv.session_of_awaiting {s : State} {x : Exchange} (h : s.Inv) (hp : s.point = .awaiting x) :
    s.link = .opened ∧ s.regime = .blocking ∧ (x ≠ .echo → s.sync = .synced) := by
  have hat := h.atPoint
  cases x <;> simp only [State.AtPoint, hp] at hat
  case echo =>
    obtain ⟨hl, hr, -⟩ := hat
    exact ⟨hl, hr, absurd rfl⟩
  case rawMode | triggerMode =>
    obtain ⟨hl, hr, hs⟩ := hat
    exact ⟨hl, hr, fun _ => hs⟩
  case reading =>
    obtain ⟨hl, hr, hs, -⟩ := hat
    exact ⟨hl, hr, fun _ => hs⟩

/-- The invariant speaks of the engine's own fields: not of the ports, the trace or the resets to come. -/
theorem State.Inv.frame {s : State} (h : s.Inv) (q : List Request) (d : List Byte) (o : Oracle) (tr : List Event) (n : List Nat) :
    ({ s with requests := q, reqData := d, oracle := o, trace := tr, resets := n } : State).Inv where
  busy := h.busy
  atPoint := by
    have hat := h.atPoint
    simp only [State.AtPoint] at hat ⊢
    split at hat
    case h_1 | h_2 => exact hat.of_session_eq rfl rfl rfl rfl
    all_goals exact hat
  syncCount := h.syncCount
  resyncCount := h.resyncCount
  status := h.status
  buffers := ⟨h.buffers.txPkt, h.buffers.txFrame, h.buffers.rxFrame, h.buffers.rxPkt⟩

/-- An operation's end meets the invariant where the conditions between operations and the two bounds are met: the status is the end's own, and
no buffer counts as written any more (R32, R205). -/
theorem State.ended_inv {s : State} {st : Status} (op : Byte) (a b : Word16) (hb : s.BetweenOps) (hs : s.syncCount ≤ 100)
    (hr : s.resyncCount ≤ 100) (hst : st.Consistent) : (s.ended op st a b).Inv where
  busy := rfl
  atPoint := hb.of_session_eq rfl rfl rfl rfl
  syncCount := hs
  resyncCount := hr
  status := hst
  buffers := ⟨nofun, nofun, nofun, nofun⟩

/-- The reset state meets the invariant, whatever the world at the ports is (R41, R240). -/
theorem State.reset_inv (q : List Request) (o : Oracle) (n : List Nat) :
    ({ State.reset with requests := q, oracle := o, resets := n } : State).Inv where
  busy := rfl
  atPoint := State.betweenOps_of_unsynced rfl rfl
  syncCount := Nat.zero_le _
  resyncCount := Nat.zero_le _
  status := Status.success_consistent
  buffers := ⟨nofun, nofun, nofun, nofun⟩

/-! ### The counters -/

/-- Receiving is a stretch that keeps the point and reads only. -/
theorem Received.ran {s t : State} (h : Received s t) : Ran Event.Reading s.txPkt s.txFrame s t := by
  obtain ⟨k, x, y, c, w, o, es, hk, hes, rfl⟩ := h
  exact ⟨k, x, y, c, w, o, s.point, es, hk, hes, rfl⟩

theorem Ran.resyncCount_le {P : Event → Prop} {pkt frame : List Byte} {s t : State} (h : Ran P pkt frame s t)
    (hs : s.resyncCount ≤ 100) : t.resyncCount ≤ 100 := by
  obtain ⟨k, x, y, c, w, o, p, es, hk, -, rfl⟩ := h
  rcases hk with rfl | hk
  · exact hs
  · exact hk

theorem Ran.syncCount_le {P : Event → Prop} {pkt frame : List Byte} {s t : State} (h : Ran P pkt frame s t)
    (hs : s.syncCount ≤ 100) : t.syncCount ≤ 100 := by
  obtain ⟨k, x, y, c, w, o, p, es, -, -, rfl⟩ := h
  exact hs

theorem Opened.counts_le {C : Codec} {s t : State} (h : Opened C s t) (hs : s.syncCount ≤ 100) (hr : s.resyncCount ≤ 100) :
    t.syncCount ≤ 100 ∧ t.resyncCount ≤ 100 := by
  obtain ⟨l, g, y, n, k, c, pkt, frame, x, p, w, o, pt, es, hn, hk, -, rfl⟩ := h
  exact ⟨hn.elim (· ▸ hs) id, hk.elim (· ▸ hr) id⟩

end Sys2Proof.Machine
end

section
/-! SUPPORT. Every way a request or a step can end keeps the engine's invariant (10_state.md R38). -/

namespace Sys2Proof.Machine

/-! ### Inside an operation of a synchronized session -/

/-- A synchronized session, both counters within their budgets: what a mode command or a reading needs for its end to meet the invariant. -/
structure State.InSession (s : State) : Prop where
  link : s.link = .opened
  regime : s.regime = .blocking
  sync : s.sync = .synced
  syncCount : s.syncCount ≤ 100
  resyncCount : s.resyncCount ≤ 100

/-- A success writes the raw flag, the mode and the result at most (R185 to R187). -/
theorem State.InSession.success_inv {u : State} (h : u.InSession) (op : Byte) (raw : Bool) (m : Mode) (v : Word16) :
    (({ u with rawFlag := raw, mode := m, result := v } : State).ended op Status.success 0 0).Inv :=
  State.ended_inv op 0 0 (State.betweenOps_of_synced h.link h.regime h.sync) h.syncCount h.resyncCount Status.success_consistent

/-- An error keeps the session synchronized or desynchronizes it (R216, R217). -/
theorem State.InSession.raise_inv {u : State} (h : u.InSession) (op : Byte) (e : Raise) :
    ((raiseEffect op e u).ended op (Status.ofError e.code) e.a e.b).Inv :=
  State.ended_inv op e.a e.b (raiseEffect_betweenOps op e h.link h.regime h.sync) (by simpa using h.syncCount)
    (by simpa using h.resyncCount) (Status.ofError_consistent e.code)

/-- A stretch of an operation keeps the session. -/
theorem Ran.inSession {P : Event → Prop} {pkt frame : List Byte} {s u : State} (hu : Ran P pkt frame s u) (h : s.InSession) :
    u.InSession := by
  obtain ⟨hl, hr, hy, -⟩ := hu.keeps
  exact ⟨hl.trans h.link, hr.trans h.regime, hy.trans h.sync, hu.syncCount_le h.syncCount, hu.resyncCount_le h.resyncCount⟩

/-- An accepted request finds a session where the engine is synchronized (R38). -/
theorem State.Inv.accepted_inSession {s : State} (h : s.Inv) (hb : s.BetweenOps) (hs : s.sync = .synced) : s.accepted.InSession := by
  obtain ⟨hl, hr⟩ := hb.synced hs
  exact ⟨hl, hr, hs, h.syncCount, h.resyncCount⟩

/-! ### The request -/

/-- The drain point of a bring-up that has not ended meets the invariant (R131, R136). -/
theorem AtDrain.inv {s u : State} (hd : AtDrain Config.codec s.accepted u) (hu : Opened Config.codec s.accepted u) (h : s.Inv) :
    u.Inv := by
  obtain ⟨hlink, hregime, hsync, hpoint, -, hpkt, htxPkt, htxFrame, hrxFrame, hrxPkt, hwFrame, hwPkt⟩ := hd
  obtain ⟨hmode, -, -, hbusy, hstatus, -⟩ := hu.keeps
  obtain ⟨hsc, hrc⟩ := hu.counts_le h.syncCount h.resyncCount
  refine ⟨?_, ?_, hsc, hrc, hstatus ▸ h.status, fun _ => ?_, fun hw => ?_, fun hw => ?_, fun hw => ?_⟩
  · rw [hbusy, hpoint]
    rfl
  · simp only [State.AtPoint, hpoint]
    exact ⟨hlink, hregime, hsync, hmode, hpkt, htxPkt⟩
  · rw [htxPkt, cmdPacket_length]
  · rcases htxFrame with hf | ⟨hf, hwf⟩
    · rw [hf, encoded_length]
    · rw [hf]
      exact h.buffers.txFrame (hwf ▸ hw)
  · rw [hrxFrame]
    exact h.buffers.rxFrame (hwFrame ▸ hw)
  · rw [hrxPkt]
    exact h.buffers.rxPkt (hwPkt ▸ hw)

/-- However a request ends, or rests in its drain, the invariant is kept (R38, R205, R206). -/
theorem RequestOutcome.inv {s t : State} {op : Byte} (ht : RequestOutcome s op t) (h : s.Inv) (hb : s.BetweenOps) : t.Inv := by
  cases ht with
  | draining u hu hd => exact hd.inv hu h
  | synced u hu hl hr hs =>
    obtain ⟨hsc, hrc⟩ := hu.counts_le h.syncCount h.resyncCount
    exact State.InSession.success_inv ⟨hl, hr, hs, hsc, hrc⟩ 0x01 u.rawFlag u.mode u.result
  | rawMode u p f hs hu => exact (hu.inSession (h.accepted_inSession hb hs)).success_inv 0x02 true .rawConfigured u.result
  | triggerMode u p f low high hs hle hu =>
    exact (hu.inSession (h.accepted_inSession hb hs)).success_inv 0x03 u.rawFlag .triggerConfigured u.result
  | reading u value hs hm hu => exact (hu.inSession (h.accepted_inSession hb hs)).success_inv 0x04 u.rawFlag u.mode value
  | crc reg c drawn =>
    exact State.ended_inv _ _ _ (hb.of_session_eq rfl rfl rfl rfl) h.syncCount h.resyncCount Status.success_consistent
  | debug flag =>
    exact State.ended_inv _ _ _ (hb.of_session_eq rfl rfl rfl rfl) h.syncCount h.resyncCount Status.success_consistent
  | closed =>
    exact State.ended_inv _ _ _ (State.betweenOps_of_unsynced rfl rfl) h.syncCount h.resyncCount Status.success_consistent
  | usage op c a b hc hu => exact State.ended_inv _ _ _ hb h.syncCount h.resyncCount (Status.ofError_consistent c)
  | openFailed e u hc hu =>
    obtain ⟨hsc, hrc⟩ := hu.counts_le h.syncCount h.resyncCount
    exact State.ended_inv _ _ _ u.desync_betweenOps hsc hrc (Status.ofError_consistent e.code)
  | modeFailed op opc low high e u p f ho hs hc hcls hu =>
    exact (hu.inSession (h.accepted_inSession hb hs)).raise_inv op e
  | readFailed e u hs hm hc hcls hu => exact (hu.inSession (h.accepted_inSession hb hs)).raise_inv 0x04 e

/-! ### The rest of an operation -/

/-- The errors of the drain and of the echo are errors of OPEN_AND_SYNC (R214). -/
theorem echoCodes_subset : echoCodes ⊆ codesOf 0x01 := by decide

/-- So are the errors of ReceivePacket. -/
theorem receiveCodes_subset : receiveCodes ⊆ codesOf 0x01 := by decide

/-- A step in the drain rests there, desynchronizes or synchronizes an open session, and keeps the invariant each time (R136 to R141). -/
theorem drained_inv {s : State} (h : s.Inv) (hp : s.point = .draining) : (complete 0x01 (drainAndEcho Config.codec s)).Inv := by
  rcases drainAndEcho_spec Config.codec s with ⟨o, es, -, hd⟩ | ⟨frame, t, -, ht, hd⟩
  · rw [hd]
    exact h.frame s.requests s.reqData o (s.trace ++ es) s.resets
  have hsc := ht.syncCount_le h.syncCount
  have hrc := ht.resyncCount_le h.resyncCount
  obtain ⟨hl, -⟩ := ht.keeps
  obtain ⟨hlink, -⟩ := h.link_txPkt_of_draining hp
  rcases hd with hd | ⟨e, he, hd⟩
  · rw [hd, complete_ok]
    exact State.InSession.success_inv (u := { t with regime := .blocking, sync := .synced })
      ⟨hl.trans hlink, rfl, rfl, hsc, hrc⟩ 0x01 t.rawFlag t.mode t.result
  · have hcode := echoCodes_subset he
    rcases hd with hd | hd <;> rw [hd, complete_raise, raiseEffect_bringUp _ _ hcode] <;>
      exact State.ended_inv _ _ _ (State.desync_betweenOps _) hsc hrc (Status.ofError_consistent e.code)

/-- Judging the awaited response keeps the invariant (R140, R185 to R187, R216). -/
theorem judged_inv {s u : State} {x : Exchange} (h : s.Inv) (hp : s.point = .awaiting x) (hu : Received s u) (kind : Byte)
    (value : Word16) : (complete x.op (judge x kind value u)).Inv := by
  obtain ⟨hlink, hregime, hsync⟩ := h.session_of_awaiting hp
  obtain ⟨hl, hr, hy, -⟩ := hu.ran.keeps
  have hsc := hu.ran.syncCount_le h.syncCount
  have hrc := hu.ran.resyncCount_le h.resyncCount
  have hin : x ≠ .echo → u.InSession := fun hx => ⟨hl.trans hlink, hr.trans hregime, hy.trans (hsync hx), hsc, hrc⟩
  rcases judge_spec x kind value u with ⟨e, hj, hcls⟩ | ⟨rfl, hj⟩ | ⟨rfl, hj⟩ | ⟨rfl, hj⟩ | ⟨rfl, hj⟩ <;> rw [hj]
  · rw [complete_raise, raiseEffect_fatal _ _ _ (.inr hcls)]
    exact State.ended_inv _ _ _ u.desync_betweenOps hsc hrc (Status.ofError_consistent e.code)
  · exact State.InSession.success_inv (u := { u with sync := .synced }) ⟨hl.trans hlink, hr.trans hregime, rfl, hsc, hrc⟩
      0x01 u.rawFlag u.mode u.result
  · exact (hin (by decide)).success_inv 0x02 true .rawConfigured u.result
  · exact (hin (by decide)).success_inv 0x03 u.rawFlag .triggerConfigured u.result
  · exact (hin (by decide)).success_inv 0x04 u.rawFlag u.mode value

/-- So does an error of ReceivePacket (R141, R216, R217). -/
theorem refused_inv {s u : State} {x : Exchange} (h : s.Inv) (hp : s.point = .awaiting x) (hu : Received s u) {e : Raise}
    (he : e.code ∈ receiveCodes) : (complete x.op (.raise e u)).Inv := by
  obtain ⟨hlink, hregime, hsync⟩ := h.session_of_awaiting hp
  obtain ⟨hl, hr, hy, -⟩ := hu.ran.keeps
  have hsc := hu.ran.syncCount_le h.syncCount
  have hrc := hu.ran.resyncCount_le h.resyncCount
  rw [complete_raise]
  by_cases hx : x = .echo
  · subst hx
    rw [show Exchange.echo.op = 0x01 from rfl, raiseEffect_bringUp e u (receiveCodes_subset he)]
    exact State.ended_inv _ _ _ u.desync_betweenOps hsc hrc (Status.ofError_consistent e.code)
  · exact State.InSession.raise_inv ⟨hl.trans hlink, hr.trans hregime, hy.trans (hsync hx), hsc, hrc⟩ x.op e

/-- Building a command packet at a free encoder keeps the invariant (R180). -/
theorem built_inv {s : State} {command : List Byte} (h : s.Inv) (hp : s.point = .building command) (opc : Byte) (low high : Word16) :
    (buildCmd opc low high { s with point := .idle }).Inv := by
  have hb := h.betweenOps_of_building hp
  rw [buildCmd_eq]
  refine ⟨?_, hb.of_session_eq rfl rfl rfl rfl, h.syncCount, h.resyncCount, h.status,
    fun _ => cmdPacket_length opc low high, h.buffers.txFrame, h.buffers.rxFrame, h.buffers.rxPkt⟩
  rw [h.busy, hp]
  rfl

/-! ### The step -/

/-- A step with no reset in it keeps the invariant. -/
theorem RunOutcome.inv {s t : State} (ht : RunOutcome s t) (h : s.Inv) : t.Inv := by
  cases ht with
  | waiting hp hq => exact h
  | accepted hp hb r rest op t hq ht =>
    have hidle := h.betweenOps_of_idle hp
    exact ht.inv (h.frame rest r.data s.oracle s.trace s.resets) (hidle.of_session_eq rfl rfl rfl rfl)
  | built command hp opc low high => exact built_inv h hp opc low high
  | drained hp hw => exact drained_inv h hp
  | judged x hp u hu kind value => exact judged_inv h hp hu kind value
  | refused x hp u hu e he => exact refused_inv h hp hu he

/-- Cutting a step off leaves a reset state, or the step's own state with other resets to come (R240). -/
theorem cutAt_inv (k : Nat) (s : State) {u : State} (h : u.Inv) : (s.cutAt k u).Inv := by
  rcases cutAt_spec k s u with ⟨o, hc⟩ | ⟨n, hc⟩ <;> rw [hc]
  · exact State.reset_inv u.requests o u.resets.tail
  · exact h.frame u.requests u.reqData u.oracle u.trace (n :: u.resets.tail)

/-- Settles O51: `State.Inv` is kept by each way a step can go on, by a reset, and by a step that a reset cuts off. -/
theorem stepKeepsInvariant : Obligations.StepKeepsInvariant := by
  intro s t h hstep
  rcases step_cases s t hstep with ⟨-, ht⟩ | ⟨rest, -, rfl⟩ | ⟨k, rest, u, -, hu, rfl⟩
  · exact ht.inv h
  · exact State.reset_inv s.requests s.oracle s.resets.tail
  · exact cutAt_inv k s (hu.inv h)

end Sys2Proof.Machine
end

section
/-! SUPPORT. A step by the resets to come (70_reset_and_hazards.md R240), a step that starts inside an operation as the rest of that operation
(10_state.md R21), and when the model stops (10_state.md R42). -/

namespace Sys2Proof.Machine

/-! ### A step by the resets to come -/

theorem step_of_reset_now {s : State} {rest : List Nat} (h : s.resets = 0 :: rest) : step s = .next s.applyReset := by
  simp only [step, stepEngine, h]

theorem step_of_reset_later {s : State} {k : Nat} {rest : List Nat} (h : s.resets = (k + 1) :: rest) :
    step s = cutOutcome k s (stepRunning s) := by
  simp only [step, stepEngine, h]

/-- Where the undisturbed step answers, the step does, whatever resets are to come. -/
theorem step_answers_of_running {s : State} (h : ∃ t, stepRunning s = .next t) : ∃ t, step s = .next t := by
  obtain ⟨t, ht⟩ := h
  match hr : s.resets with
  | [] => exact ⟨t, (step_of_undisturbed s hr).trans ht⟩
  | 0 :: _ => exact ⟨_, step_of_reset_now hr⟩
  | (k + 1) :: _ => exact ⟨s.cutAt k t, by rw [step_of_reset_later hr, ht, cutOutcome]⟩

/-- Where the undisturbed step faults, only a reset that comes at once keeps the step from it. -/
theorem step_fault_of_running {s : State} {f : Fault} (h : stepRunning s = .fault f) (hr : s.resets.head? ≠ some 0) :
    step s = .fault f := by
  match hrs : s.resets with
  | [] => exact (step_of_undisturbed s hrs).trans h
  | 0 :: _ => exact absurd (by rw [hrs]; rfl) hr
  | (k + 1) :: _ => rw [step_of_reset_later hrs, h, cutOutcome]

/-- Settles O48: the drain tests the packet's mark before anything else. -/
theorem unwrittenPacketFaults : Obligations.UnwrittenPacketFaults := by
  intro s hr hp hw
  refine step_fault_of_running ?_ hr
  simp only [stepRunning, hp, stepDraining, hw, Bool.false_eq_true, if_false]

/-! ### A step inside an operation -/

/-- In the drain, with its packet written, the step is the rest of the bring-up (R137, R206). -/
theorem stepRunning_draining {s : State} (hp : s.point = .draining) (hw : s.written.txPkt = true) :
    stepRunning s = .next (complete 0x01 (drainAndEcho Config.codec s)) := by
  simp only [stepRunning, hp, stepDraining, hw, if_true, resumeDrain]

/-- The wait for a response, by what ReceivePacket comes to (R61). -/
theorem awaitResponse_eq (C : Codec) {x : Exchange} {s : State} (hp : s.point = .awaiting x) :
    (∀ e u, receivePacket C 5 s = .raise e u → awaitResponse C x s = .raise e u) ∧
      (∀ kind value u, receivePacket C 5 s = .ok (rspPacket kind value) u → awaitResponse C x s = judge x kind value u) := by
  have hs : { s with point := .awaiting x } = s := by rw [← hp]
  refine ⟨fun e u h => ?_, fun kind value u h => ?_⟩
  · simp only [awaitResponse, hs, Config.rspLen, h, Res.bind]
  · simp only [awaitResponse, hs, Config.rspLen, h, Res.bind, kindOf_rspPacket, valueOf_rspPacket]

/-- Receiving keeps the point. -/
theorem Received.point {s t : State} (h : Received s t) : t.point = s.point := by
  obtain ⟨k, x, y, c, w, o, es, -, -, rfl⟩ := h
  rfl

/-- Where a response is awaited, the step receives the packet, decodes it and executes its row, which is the rest of the operation (R162, R168,
R170, R184). -/
theorem stepRunning_awaiting {s : State} {x : Exchange} (hp : s.point = .awaiting x) :
    stepRunning s = .next (complete x.op (awaitResponse Config.codec x s)) := by
  obtain ⟨hraise, hok⟩ := awaitResponse_eq Config.codec hp
  simp only [stepRunning, hp, stepAwaiting, Config.rspLen]
  obtain ⟨u, hu, ⟨p, ⟨kind, value, rfl⟩, hrec⟩ | ⟨e, -, hrec⟩⟩ := receivePacket_spec Config.codec s
  · obtain ⟨i, hd, hi⟩ := decode_response kind value
    simp only [hrec, hd, exec_response i kind value u hi, respond, hu.point.trans hp, hok kind value u hrec]
  · simp only [hrec, hraise e u hrec]

/-! ### The invariant keeps the model from stopping -/

/-- At a free or a busy port the engine answers: every request word has a row (R84). -/
theorem stepIdle_answers (s : State) : ∃ t, stepIdle s = .next t := by
  match hq : s.requests with
  | [] => exact ⟨s, by simp only [stepIdle, hq]⟩
  | r :: rest =>
    by_cases hb : s.busy = true
    · exact ⟨s, by simp only [stepIdle, hq, hb, if_true]⟩
    · obtain ⟨i, op, hd, hi⟩ := decode_request r
      obtain ⟨t, ht, -⟩ := exec_request_outcome i op (s.takeRequest r rest) hi
      exact ⟨t, by simp only [stepIdle, hq, hb, Bool.false_eq_true, if_false, hd, ht]⟩

/-- Settles O54: at each point the undisturbed step answers, the drain because its packet is written there. -/
theorem stepFromInvariantAnswers : Obligations.StepFromInvariantAnswers := by
  intro s h hcommand
  apply step_answers_of_running
  cases hp : s.point with
  | idle =>
    obtain ⟨t, ht⟩ := stepIdle_answers s
    exact ⟨t, by simp only [stepRunning, hp, ht]⟩
  | building command =>
    obtain ⟨i, hi⟩ := hcommand command hp
    obtain ⟨opc, low, high, hx⟩ := exec_command command i { s with point := .idle } hi
    have hrun : stepRunning s = exec i { s with point := .idle } := by simp only [stepRunning, hp, stepBuilding, hi]
    exact ⟨_, hrun.trans hx⟩
  | draining =>
    obtain ⟨-, hw⟩ := h.link_txPkt_of_draining hp
    exact ⟨_, stepRunning_draining hp hw⟩
  | awaiting x => exact ⟨_, stepRunning_awaiting hp⟩

/-! ### A request and its end -/

/-- The response kind that ends the exchange successfully (R83, R140, R185 to R187). -/
def Exchange.wanted : Exchange → Byte
  | .echo => 0x01
  | .rawMode => 0x02
  | .triggerMode => 0x03
  | .reading => 0x00

/-- The error that a response of another kind raises (R83). -/
def Exchange.mismatch : Exchange → ErrorCode
  | .echo => .notInSync
  | .rawMode => .rawModeFailed
  | .triggerMode => .triggerModeFailed
  | .reading => .notSensorReading

theorem Exchange.mismatch_cls (x : Exchange) : x.mismatch.cls = .protocolFatal := by cases x <;> rfl

/-- A response of another kind than the one wanted is the exchange's own error, with the kind received (R83). -/
theorem judge_of_ne_wanted {x : Exchange} {kind : Byte} (h : kind ≠ x.wanted) (value : Word16) (s : State) :
    judge x kind value s = .raise { code := x.mismatch, a := zext16 kind, b := 0 } s := by
  cases x <;> exact if_neg h

theorem Exchange.op_ne_bringUp {x : Exchange} (h : x ≠ .echo) : x.op ≠ 0x01 := by
  revert h
  cases x <;> decide

/-- What ReceivePacket raises has one of its codes (R169). -/
theorem receivePacket_raise_code {C : Codec} {s u : State} {e : Raise} (h : receivePacket C 5 s = .raise e u) : e.code ∈ receiveCodes := by
  obtain ⟨t, -, ⟨p, -, h'⟩ | ⟨e', he, h'⟩⟩ := receivePacket_spec C s <;> rw [h] at h' <;> cases h'
  exact he

/-- Outside bring-up an error of ReceivePacket desynchronizes, but for FRAME_DISCARDED (R216, R217). -/
theorem raiseEffect_receive {op : Byte} {e : Raise} (ho : op ≠ 0x01) (he : e.code ∈ receiveCodes) (s : State) :
    raiseEffect op e s = if e.code = .frameDiscarded then s else s.desync := by
  by_cases hc : e.code = .frameDiscarded
  · simp only [raiseEffect, hc, ErrorCode.cls, if_true, if_neg ho]
  · rw [if_neg hc, raiseEffect_fatal]
    revert he hc
    cases e.code <;> decide

/-- A request that awaits its response from `t` on, other than OPEN_AND_SYNC: it is the step from `t`, and ends with any error of ReceivePacket
by its class, and with its own fatal error where the response is of another kind (R83, R216, R217). -/
theorem exec_of_awaiting {x : Exchange} {i : Instr} {s t : State} (hx : x ≠ .echo) (hp : t.point = .awaiting x) (hr : t.resets = s.resets)
    (hexec : exec i s = .next (complete x.op (awaitResponse Config.codec x t))) :
    (s.resets = [] → exec i s = step t) ∧
    (∀ (e : Raise) (u : State), receivePacket Config.codec 5 t = .raise e u → exec i s =
      .next ((if e.code = .frameDiscarded then u else u.desync).ended x.op { cls := e.code.cls, code := e.code.num } e.a e.b)) ∧
    (∀ (kind : Byte) (value : Word16) (u : State), receivePacket Config.codec 5 t = .ok (rspPacket kind value) u → kind ≠ x.wanted →
      exec i s = .next (u.desync.ended x.op { cls := .protocolFatal, code := x.mismatch.num } (kind.setWidth 16) 0)) := by
  obtain ⟨hraise, hok⟩ := awaitResponse_eq Config.codec hp
  refine ⟨fun hs => ?_, fun e u hrec => ?_, fun kind value u hrec hk => ?_⟩ <;> rw [hexec]
  · rw [step_of_undisturbed t (hr.trans hs), stepRunning_awaiting hp]
  · rw [hraise e u hrec, complete_raise, raiseEffect_receive (Exchange.op_ne_bringUp hx) (receivePacket_raise_code hrec)]
    rfl
  · rw [hok kind value u hrec, judge_of_ne_wanted hk, complete_raise, raiseEffect_fatal _ _ _ (.inr x.mismatch_cls), ← x.mismatch_cls]
    rfl

/-- An exchange whose command was written whole goes on to await its response (R61, R160). -/
theorem exchange_of_sent {C : Codec} {x : Exchange} {s : State} {o : Oracle}
    (h : s.oracle.takeWrite (C.enc s.txPkt).length = (.ok 9, o)) :
    exchange C x s = awaitResponse C x { s with
      txFrame := C.enc s.txPkt, written := { s.written with txFrame := true }, oracle := o
      trace := s.trace ++ [.tx (C.enc s.txPkt) (.ok 9)], point := .awaiting x } := by
  obtain ⟨-, hok, -⟩ := sendCommand_eq C s.txPkt s _ _ o h rfl
  simp only [exchange, hok rfl, Res.bind]
  rfl

/-- SET_RAW_MODE from where its command was sent (R185). -/
theorem exec_setRawMode_of_sent {s : State} {o : Oracle} (a b : Word16) (hs : s.sync = .synced)
    (hw : s.oracle.takeWrite 9 = (.ok 9, o)) :
    exec (.setRawMode a b) s = .next (complete 0x02 (awaitResponse Config.codec .rawMode { s.sending 0x10 0 0 with
      busy := true, point := .awaiting .rawMode, crcReg := 0x84C8, oracle := o
      written := { s.written with crcReg := true, txPkt := true, txFrame := true }
      trace := s.trace ++ [.tx (Config.codec.enc (cmdPacket 0x10 0 0)) (.ok 9)] })) := by
  have hop : setRawModeOp Config.codec s.accepted = exchange Config.codec .rawMode (buildRaw s.accepted) := if_pos hs
  have hsent := exchange_of_sent (C := Config.codec) (x := .rawMode) (s := buildRaw s.accepted) (o := o)
    (by rw [buildRaw_eq, encoded_length]; exact hw)
  have hcrc : crcRun 0xFFFF (cmdBody 0x10 0 0) = (0x84C8 : Word16) := by decide +kernel
  show Host.Outcome.next (complete 0x02 (setRawModeOp Config.codec s.accepted)) = _
  rw [hop, hsent, buildRaw_eq, hcrc]
  rfl

/-- SET_TRIGGER_MODE from where its command was sent (R186). -/
theorem exec_setTriggerMode_of_sent {s : State} {o : Oracle} {low high : Word16} (hs : s.sync = .synced) (hl : low.toInt ≤ high.toInt)
    (hw : s.oracle.takeWrite 9 = (.ok 9, o)) :
    exec (.setTriggerMode low high) s = .next (complete 0x03 (awaitResponse Config.codec .triggerMode { s.sending 0x20 low high with
      busy := true, point := .awaiting .triggerMode, crcReg := crcRun 0xFFFF [0x20, hi low, lo low, hi high, lo high], oracle := o
      written := { s.written with crcReg := true, txPkt := true, txFrame := true }
      trace := s.trace ++ [.tx (Config.codec.enc (cmdPacket 0x20 low high)) (.ok 9)] })) := by
  have hg : ¬ signedGt low high = true := fun h => not_lt.2 hl (of_decide_eq_true h)
  have hop : setTriggerModeOp Config.codec low high s.accepted =
      exchange Config.codec .triggerMode (buildTrigger low high s.accepted) := (if_pos hs).trans (if_neg hg)
  have hsent := exchange_of_sent (C := Config.codec) (x := .triggerMode) (s := buildTrigger low high s.accepted) (o := o)
    (by rw [buildTrigger_eq, encoded_length]; exact hw)
  show Host.Outcome.next (complete 0x03 (setTriggerModeOp Config.codec low high s.accepted)) = _
  rw [hop, hsent, buildTrigger_eq]
  rfl

/-- READ_SENSOR_VALUE from where it awaits its response (R187). -/
theorem exec_readSensorValue_of_mode {s : State} (a b : Word16) (hs : s.sync = .synced) (hm : s.mode ≠ .idle) :
    exec (.readSensorValue a b) s =
      .next (complete 0x04 (awaitResponse Config.codec .reading { s with busy := true, point := .awaiting .reading })) := by
  have hop : readSensorValueOp Config.codec s.accepted = awaitResponse Config.codec .reading s.accepted := if_pos ⟨hs, hm⟩
  show Host.Outcome.next (complete 0x04 (readSensorValueOp Config.codec s.accepted)) = _
  rw [hop]
  rfl

/-- Settles O43: the step is the rest of the operation by `stepRunning_awaiting` and `stepRunning_draining`; each of the three requests is
its own end from where it awaits its response, and `exec_of_awaiting` says what that end is. -/
theorem awaitingStepIsRestOfRequest : Obligations.AwaitingStepIsRestOfRequest := by
  intro s
  refine ⟨fun x hr hp => (step_of_undisturbed s hr).trans (stepRunning_awaiting hp),
    fun hr hp hw => (step_of_undisturbed s hr).trans (stepRunning_draining hp hw), ?_⟩
  rintro i op wanted code a b o begun hs
    (⟨rfl, rfl, rfl, rfl, hw, rfl⟩ | ⟨rfl, rfl, rfl, rfl, hl, hw, rfl⟩ | ⟨rfl, rfl, rfl, rfl, hm, rfl⟩)
  · exact exec_of_awaiting (x := .rawMode) (by decide) rfl rfl (exec_setRawMode_of_sent a b hs hw)
  · exact exec_of_awaiting (x := .triggerMode) (by decide) rfl rfl (exec_setTriggerMode_of_sent hs hl hw)
  · exact exec_of_awaiting (x := .reading) (by decide) rfl rfl (exec_readSensorValue_of_mode a b hs hm)

end Sys2Proof.Machine
end

section
/-! SUPPORT. What each operation leaves unchanged (10_state.md R22 to R24, R27 to R29, R36), composed from the stretches it consists of,
and who writes the raw flag (R27, R190). -/

namespace Sys2Proof.Machine

/-! ### The frame of an operation -/

/-- What the operation with this request code leaves unchanged between two states. -/
structure Framed (op : Byte) (s t : State) : Prop where
  requests : t.requests = s.requests
  resets : t.resets = s.resets
  debug : op ≠ 0x06 → t.debug = s.debug
  rawFlag : op ≠ 0x02 → t.rawFlag = s.rawFlag
  session : op ≠ 0x01 → op ≠ 0x07 → t.link = s.link ∧ t.regime = s.regime
  result : op ≠ 0x04 → op ≠ 0x05 → t.result = s.result
  syncCount : op ≠ 0x01 → t.syncCount = s.syncCount
  transmit : op ≠ 0x01 → op ≠ 0x02 → op ≠ 0x03 → t.txPkt = s.txPkt ∧ t.txFrame = s.txFrame ∧
    ∃ events, t.trace = s.trace ++ events ∧ ∀ e ∈ events, ∀ bytes r, e ≠ .tx bytes r

theorem Framed.trans {op : Byte} {s t u : State} (h : Framed op s t) (h' : Framed op t u) : Framed op s u where
  requests := h'.requests.trans h.requests
  resets := h'.resets.trans h.resets
  debug ho := (h'.debug ho).trans (h.debug ho)
  rawFlag ho := (h'.rawFlag ho).trans (h.rawFlag ho)
  session h1 h7 := by
    obtain ⟨hl, hr⟩ := h.session h1 h7
    obtain ⟨hl', hr'⟩ := h'.session h1 h7
    exact ⟨hl'.trans hl, hr'.trans hr⟩
  result h4 h5 := (h'.result h4 h5).trans (h.result h4 h5)
  syncCount ho := (h'.syncCount ho).trans (h.syncCount ho)
  transmit h1 h2 h3 := by
    obtain ⟨hp, hf, es, htr, hes⟩ := h.transmit h1 h2 h3
    obtain ⟨hp', hf', es', htr', hes'⟩ := h'.transmit h1 h2 h3
    refine ⟨hp'.trans hp, hf'.trans hf, es ++ es', by rw [htr', htr, List.append_assoc], fun e he => ?_⟩
    exact (List.mem_append.1 he).elim (hes e) (hes' e)

/-- The end of an operation adds its `DONE` to the trace and keeps every field of the frame (R205). -/
theorem State.ended_framed (op : Byte) (st : Status) (a b : Word16) (s : State) : Framed op s (s.ended op st a b) where
  requests := rfl
  resets := rfl
  debug _ := rfl
  rawFlag _ := rfl
  session _ _ := ⟨rfl, rfl⟩
  result _ _ := rfl
  syncCount _ := rfl
  transmit _ _ _ := ⟨rfl, rfl, [.done op st a b s.result], rfl, by simp⟩

/-- A write to fields of which the frame keeps the last five only where the operation is not one of their writers. -/
theorem State.write_framed {op : Byte} {s : State} {y : SyncState} {m : Mode} {busy : Bool} {p : Point} {c : Word16} {o : Oracle} {d f : Bool}
    {l : LinkState} {g : Regime} {v : Word16} (hd : op ≠ 0x06 → d = s.debug) (hf : op ≠ 0x02 → f = s.rawFlag)
    (hs : op ≠ 0x01 → op ≠ 0x07 → l = s.link ∧ g = s.regime) (hv : op ≠ 0x04 → op ≠ 0x05 → v = s.result) :
    Framed op s { s with
      sync := y, mode := m, busy := busy, point := p, crcReg := c, oracle := o, debug := d, rawFlag := f, link := l, regime := g
      result := v } :=
  ⟨rfl, rfl, hd, hf, hs, hv, fun _ => rfl, fun _ _ _ => ⟨rfl, rfl, [], by simp, by simp⟩⟩

theorem State.accepted_framed (op : Byte) (s : State) : Framed op s s.accepted :=
  State.write_framed (fun _ => rfl) (fun _ => rfl) (fun _ _ => ⟨rfl, rfl⟩) (fun _ _ => rfl)

theorem State.desync_framed (op : Byte) (s : State) : Framed op s s.desync :=
  State.write_framed (fun _ => rfl) (fun _ => rfl) (fun _ _ => ⟨rfl, rfl⟩) (fun _ _ => rfl)

theorem Framed.refl (op : Byte) (s : State) : Framed op s s :=
  State.write_framed (fun _ => rfl) (fun _ => rfl) (fun _ _ => ⟨rfl, rfl⟩) (fun _ _ => rfl)

/-- An error writes the synchronization state and the mode at most (R216 to R218). -/
theorem raiseEffect_framed (op : Byte) (e : Raise) (s : State) : Framed op s (raiseEffect op e s) := by
  rcases raiseEffect_spec op e s with ⟨h, -⟩ | ⟨h, -⟩ <;> rw [h]
  · exact s.desync_framed op
  · exact .refl op s

/-- An operation that raised is framed as it was up to the raise (R205). -/
theorem complete_raise_framed (op : Byte) (e : Raise) (s : State) : Framed op s (complete op (.raise e s)) := by
  rw [complete_raise]
  exact (raiseEffect_framed op e s).trans (State.ended_framed op _ _ _ _)

/-- Reading events send nothing. -/
theorem Event.Reading.ne_tx {e : Event} (h : e.Reading) (bytes : List Byte) (r : WriteResult) : e ≠ .tx bytes r := by
  rcases h with ⟨q, rfl⟩ | ⟨q, rfl⟩ <;> exact nofun

/-- A stretch that reads only is framed for every operation. -/
theorem Ran.framed_of_reading {s t : State} (op : Byte) (h : Ran Event.Reading s.txPkt s.txFrame s t) : Framed op s t := by
  obtain ⟨hl, hr, -, -, hf, hd, hc, -, hv, hq, hn⟩ := h.keeps
  obtain ⟨es, htr, hes, hp, hx⟩ := h.trace
  exact ⟨hq, hn, fun _ => hd, fun _ => hf, fun _ _ => ⟨hl, hr⟩, fun _ _ => hv, fun _ => hc,
    fun _ _ _ => ⟨hp, hx, es, htr, fun e he => (hes e he).ne_tx⟩⟩

/-- A stretch that may send is framed for the operations that send. -/
theorem Ran.framed_of_sender {P : Event → Prop} {pkt frame : List Byte} {s t : State} {op : Byte} (h : Ran P pkt frame s t)
    (ho : op = 0x01 ∨ op = 0x02 ∨ op = 0x03) : Framed op s t := by
  obtain ⟨hl, hr, -, -, hf, hd, hc, -, hv, hq, hn⟩ := h.keeps
  exact ⟨hq, hn, fun _ => hd, fun _ => hf, fun _ _ => ⟨hl, hr⟩, fun _ _ => hv, fun _ => hc,
    fun h1 h2 h3 => (ho.elim h1 (·.elim h2 h3)).elim⟩

/-- Bring-up keeps what every operation keeps, the two flags and the result (R131). -/
theorem Opened.framed {C : Codec} {s t : State} (h : Opened C s t) : Framed 0x01 s t := by
  obtain ⟨-, hf, hd, -, -, hv, hq, hn⟩ := h.keeps
  exact ⟨hq, hn, fun _ => hd, fun _ => hf, fun h1 => absurd rfl h1, fun _ _ => hv, fun h1 => absurd rfl h1, fun h1 => absurd rfl h1⟩

/-- CLOSE's one event sends nothing (R201). -/
theorem closing_ne_tx {s : State} {e : Event} (he : e ∈ closing s) (bytes : List Byte) (r : WriteResult) : e ≠ .tx bytes r := by
  unfold closing at he
  split at he
  · rw [List.mem_singleton.1 he]
    exact nofun
  · cases he

/-! ### Successes -/

theorem echoed_framed (g : Regime) (s : State) :
    Framed 0x01 s (({ s with regime := g, sync := .synced } : State).ended 0x01 Status.success 0 0) :=
  (State.write_framed (fun _ => rfl) (fun _ => rfl) (absurd rfl) (fun _ _ => rfl)).trans (State.ended_framed _ _ _ _ _)

theorem rawMode_framed (s : State) :
    Framed 0x02 s (({ s with rawFlag := true, mode := .rawConfigured } : State).ended 0x02 Status.success 0 0) :=
  (State.write_framed (fun _ => rfl) (absurd rfl) (fun _ _ => ⟨rfl, rfl⟩) (fun _ _ => rfl)).trans (State.ended_framed _ _ _ _ _)

theorem triggerMode_framed (s : State) :
    Framed 0x03 s (({ s with mode := .triggerConfigured } : State).ended 0x03 Status.success 0 0) :=
  (State.write_framed (fun _ => rfl) (fun _ => rfl) (fun _ _ => ⟨rfl, rfl⟩) (fun _ _ => rfl)).trans (State.ended_framed _ _ _ _ _)

theorem reading_framed (value : Word16) (s : State) :
    Framed 0x04 s (({ s with result := value } : State).ended 0x04 Status.success 0 0) :=
  (State.write_framed (fun _ => rfl) (fun _ => rfl) (fun _ _ => ⟨rfl, rfl⟩) (absurd rfl)).trans (State.ended_framed _ _ _ _ _)

theorem crc_framed (reg c : Word16) (o : Oracle) (s : State) :
    Framed 0x05 s (({ s with crcReg := reg, result := c, oracle := o } : State).ended 0x05 Status.success 0 0) :=
  (State.write_framed (fun _ => rfl) (fun _ => rfl) (fun _ _ => ⟨rfl, rfl⟩) (fun _ h => absurd rfl h)).trans
    (State.ended_framed _ _ _ _ _)

theorem debug_framed (flag : Bool) (s : State) :
    Framed 0x06 s (({ s with debug := flag } : State).ended 0x06 Status.success 0 0) :=
  (State.write_framed (absurd rfl) (fun _ => rfl) (fun _ _ => ⟨rfl, rfl⟩) (fun _ _ => rfl)).trans (State.ended_framed _ _ _ _ _)

theorem closed_framed (s : State) : Framed 0x07 s (({ s with
    link := .closed, regime := .unconfigured, sync := .unsynced, mode := .idle, trace := s.trace ++ closing s } : State).ended 0x07
      Status.success 0 0) := by
  refine Framed.trans ?_ (State.ended_framed _ _ _ _ _)
  exact ⟨rfl, rfl, fun _ => rfl, fun _ => rfl, fun _ h => absurd rfl h, fun _ _ => rfl, fun _ => rfl,
    fun _ _ _ => ⟨rfl, rfl, closing s, rfl, fun _ => closing_ne_tx⟩⟩

/-! ### Requests and later steps -/

/-- However a request ends, it keeps its frame. -/
theorem RequestOutcome.framed {s t : State} {op : Byte} (h : RequestOutcome s op t) : Framed op s t := by
  cases h with
  | draining u hu hd => exact (s.accepted_framed _).trans hu.framed
  | synced u hu hl hr hs => exact ((s.accepted_framed _).trans hu.framed).trans (u.ended_framed _ _ _ _)
  | rawMode u p f hs hu => exact ((s.accepted_framed _).trans (hu.framed_of_sender (.inr (.inl rfl)))).trans (rawMode_framed u)
  | triggerMode u p f low high hs hl hu =>
    exact ((s.accepted_framed _).trans (hu.framed_of_sender (.inr (.inr rfl)))).trans (triggerMode_framed u)
  | reading u value hs hm hu => exact ((s.accepted_framed _).trans (hu.framed_of_reading _)).trans (reading_framed value u)
  | crc reg c drawn => exact crc_framed reg c _ s
  | debug flag => exact debug_framed flag s
  | closed => exact closed_framed s
  | usage op c a b hc hu => exact s.ended_framed _ _ _ _
  | openFailed e u hc hu =>
    exact (((s.accepted_framed _).trans hu.framed).trans (u.desync_framed _)).trans (State.ended_framed _ _ _ _ _)
  | modeFailed op opc low high e u p f ho hs hc hcls hu =>
    have hop : op = 0x01 ∨ op = 0x02 ∨ op = 0x03 := .inr (ho.imp And.left And.left)
    exact (((s.accepted_framed op).trans (hu.framed_of_sender hop)).trans (raiseEffect_framed op e u)).trans
      (State.ended_framed _ _ _ _ _)
  | readFailed e u hs hm hc hcls hu =>
    exact (((s.accepted_framed _).trans (hu.framed_of_reading 0x04)).trans (raiseEffect_framed 0x04 e u)).trans
      (State.ended_framed _ _ _ _ _)

/-- A step in the drain keeps the frame of OPEN_AND_SYNC. -/
theorem drained_framed (s : State) : Framed 0x01 s (complete 0x01 (drainAndEcho Config.codec s)) := by
  rcases drainAndEcho_spec Config.codec s with ⟨o, es, -, hd⟩ | ⟨frame, t, -, ht, hd | ⟨e, -, hd | hd⟩⟩ <;> rw [hd]
  · exact ⟨rfl, rfl, fun _ => rfl, fun _ => rfl, fun h => absurd rfl h, fun _ _ => rfl, fun _ => rfl, fun h => absurd rfl h⟩
  · exact (ht.framed_of_sender (.inl rfl)).trans (echoed_framed .blocking t)
  · exact (ht.framed_of_sender (.inl rfl)).trans (complete_raise_framed _ e t)
  · exact ((ht.framed_of_sender (.inl rfl)).trans
      (State.write_framed (fun _ => rfl) (fun _ => rfl) (absurd rfl) (fun _ _ => rfl))).trans (complete_raise_framed _ e _)

/-- Judging a response keeps the frame of the operation that awaits it. -/
theorem judged_framed (x : Exchange) (kind : Byte) (value : Word16) (u : State) :
    Framed x.op u (complete x.op (judge x kind value u)) := by
  rcases judge_spec x kind value u with ⟨e, hj, -⟩ | ⟨rfl, hj⟩ | ⟨rfl, hj⟩ | ⟨rfl, hj⟩ | ⟨rfl, hj⟩ <;> rw [hj]
  · exact complete_raise_framed _ e u
  · exact echoed_framed u.regime u
  · exact rawMode_framed u
  · exact triggerMode_framed u
  · exact reading_framed value u

/-- A step that goes on with an operation keeps that operation's frame. -/
theorem RunOutcome.framed {s t : State} {op : Byte} (h : RunOutcome s t) (hop : s.point.op = some op) : Framed op s t := by
  cases h with
  | waiting hp hq => simp [hp, Point.op] at hop
  | accepted hp hb r rest op t hq ht => simp [hp, Point.op] at hop
  | built command hp opc low high => simp [hp, Point.op] at hop
  | drained hp hw =>
    simp only [hp, Point.op, Option.some.injEq] at hop
    exact hop ▸ drained_framed s
  | judged x hp u hu kind value =>
    simp only [hp, Point.op, Option.some.injEq] at hop
    exact hop ▸ (hu.ran.framed_of_reading x.op).trans (judged_framed x kind value u)
  | refused x hp u hu e he =>
    simp only [hp, Point.op, Option.some.injEq] at hop
    exact hop ▸ (hu.ran.framed_of_reading x.op).trans (complete_raise_framed x.op e u)

/-- An operation keeps its frame, in the step that accepts it as in a later one. -/
theorem State.RunsTo.framed {op : Byte} {s t : State} (h : s.RunsTo op t) : Framed op s t := by
  rcases h with ⟨i, hi, hexec⟩ | ⟨hr, hop, hstep⟩
  · obtain ⟨t', ht', hout⟩ := exec_request_outcome i op s hi
    rw [hexec] at ht'
    cases ht'
    exact hout.framed
  · rw [step_of_undisturbed s hr] at hstep
    exact (running_cases s t hstep).framed hop

/-- Settles O41: the frame of each operation, field by field. -/
theorem requestFrames : Obligations.RequestFrames := by
  intro op s t h
  obtain ⟨hq, hn, hd, hf, hs, hv, hc, htx⟩ := h.framed
  exact ⟨hq, hn, hd, hf, hs, hv, hc, htx⟩

/-! ### The raw flag -/

/-- What SET_RAW_MODE's success leaves: the flag, the mode and its `DONE` as the last event (R185, R190). -/
def RawModeSet (s t : State) : Prop :=
  t.rawFlag = true ∧ t.mode = .rawConfigured ∧
    ∃ events, t.trace = s.trace ++ events ++ [.done 0x02 { cls := .none, code := 0x00 } 0 0 t.result]

theorem Ran.rawModeSet {P : Event → Prop} {pkt frame : List Byte} {s u : State} (h : Ran P pkt frame s u) :
    RawModeSet s (({ u with rawFlag := true, mode := .rawConfigured } : State).ended 0x02 Status.success 0 0) := by
  obtain ⟨es, htr, -⟩ := h.trace
  exact ⟨rfl, rfl, es, congrArg (· ++ _) htr⟩

@[simp] theorem raiseEffect_rawFlag (op : Byte) (e : Raise) (s : State) : (raiseEffect op e s).rawFlag = s.rawFlag := by
  rcases raiseEffect_spec op e s with ⟨h, -⟩ | ⟨h, -⟩
  · rw [h, State.desync_rawFlag]
  · rw [h]

/-- Of the requests, only a successful SET_RAW_MODE writes the raw flag (R27, R190). -/
theorem RequestOutcome.rawFlag {s t : State} {op : Byte} (h : RequestOutcome s op t) : t.rawFlag = s.rawFlag ∨ RawModeSet s t := by
  by_cases hop : op = 0x02
  case neg => exact .inl (h.framed.rawFlag hop)
  cases h with
  | rawMode u p f hs hu => exact .inr hu.rawModeSet
  | usage op c a b hc hu => exact .inl rfl
  | modeFailed op opc low high e u p f ho hs hc hcls hu =>
    obtain ⟨-, -, -, -, hf, -⟩ := hu.keeps
    exact .inl ((raiseEffect_rawFlag op e u).trans hf)
  | _ => exact absurd hop (by decide)

/-- So of the ways a step can go on (R27, R190, R255). -/
theorem RunOutcome.rawFlag {s t : State} (h : RunOutcome s t) : t.rawFlag = s.rawFlag ∨ RawModeSet s t := by
  cases h with
  | waiting hp hq => exact .inl rfl
  | accepted hp hb r rest op t hq ht => exact ht.rawFlag
  | built command hp opc low high => exact .inl rfl
  | drained hp hw => exact .inl ((drained_framed s).rawFlag (by decide))
  | judged x hp u hu kind value =>
    obtain ⟨-, -, -, -, hf, -⟩ := hu.ran.keeps
    rcases judge_spec x kind value u with ⟨e, hj, -⟩ | ⟨rfl, hj⟩ | ⟨rfl, hj⟩ | ⟨rfl, hj⟩ | ⟨rfl, hj⟩ <;> rw [hj]
    · rw [complete_raise]
      exact .inl ((raiseEffect_rawFlag x.op e u).trans hf)
    · exact .inl hf
    · exact .inr hu.ran.rawModeSet
    · exact .inl hf
    · exact .inl hf
  | refused x hp u hu e he =>
    obtain ⟨-, -, -, -, hf, -⟩ := hu.ran.keeps
    rw [complete_raise]
    exact .inl ((raiseEffect_rawFlag x.op e u).trans hf)

/-- Settles O56: each way a step can go on keeps the flag or is the success of SET_RAW_MODE, which sets it. -/
theorem rawFlagIsSticky : Obligations.RawFlagIsSticky := by
  intro s t hr hstep
  rw [step_of_undisturbed s hr] at hstep
  rcases (running_cases s t hstep).rawFlag with hkept | ⟨hset, hmode, htrace⟩
  · exact ⟨fun h => hkept.trans h, fun h h' => absurd (hkept.symm.trans h') (by rw [h]; decide)⟩
  · exact ⟨fun _ => hset, fun _ _ => ⟨hmode, htrace⟩⟩

end Sys2Proof.Machine
end

section
/-! SUPPORT. A request out of sequence (60_exceptions.md R213), and the reset state (10_state.md R41). -/

namespace Sys2Proof.Machine

/-! ### Out of sequence -/

/-- A request whose body raises SEQUENCE ends with that usage error and changes nothing else (R213, R218). -/
theorem hostOp_of_sequenceError {op : Byte} {body : State → OpRes} {s : State} (h : body s.accepted = sequenceError s.accepted) :
    hostOp op body s = s.ended op { cls := .usage, code := 0x31 } (s.sync.num.setWidth 16) (s.mode.num.setWidth 16) := by
  show complete op (body s.accepted) = _
  rw [h, sequenceError, complete_usage _ _ _ _ _ rfl]
  rfl

/-- Settles O22: each body starts with its test of the sequence. -/
theorem sequenceErrors : Obligations.SequenceErrors := by
  intro a b s
  refine ⟨fun hs => ⟨congrArg _ (hostOp_of_sequenceError (if_neg hs)), congrArg _ (hostOp_of_sequenceError (if_neg hs))⟩,
    fun h => congrArg _ (hostOp_of_sequenceError (if_neg ?_)), rfl, rfl, rfl, rfl, rfl, rfl, rfl, rfl⟩
  rintro ⟨hs, hm⟩
  exact h.elim (· hs) hm

/-! ### Reset -/

/-- Settles O47: the reset state is written out with the table's values. -/
theorem resetValues : Obligations.ResetValues :=
  ⟨rfl, rfl, rfl, rfl, rfl, rfl, rfl, rfl, rfl, rfl, rfl, rfl, rfl, rfl, rfl⟩

/-- Settles O50: the invariant by `State.reset_inv`, the trace because it is empty. -/
theorem resetMeetsInvariants : Obligations.ResetMeetsInvariants := by
  refine ⟨State.reset_inv [] Oracle.fresh [], fun e he => ?_, rfl⟩
  exact absurd he List.not_mem_nil

end Sys2Proof.Machine
end

section
/-! SUPPORT. What each decoder answers on an encoded word, and that every word is the encoding of what it decodes to (30_encoding.md R71, R72,
R76, R77, R80, R83, R84). -/

namespace Sys2Proof

open Machine

/-! ### Decoding an encoded word -/

@[simp] theorem Machine.hi_zero : hi 0#16 = 0#8 := rfl

@[simp] theorem Machine.lo_zero : lo 0#16 = 0#8 := rfl

theorem decodeRsp_encodeRsp (kind : Byte) (value crc : Word16) (P : Params) :
    decodeRsp (encodeRsp kind value crc) P = .ok (rspInstr kind value crc P) := by
  simp only [decodeRsp, encodeRsp, be16_hi_lo]

theorem decodeHreq_encodeHreq (op : Byte) (a b : Word16) : decodeHreq (encodeHreq op a b) = .ok (hreqInstr op a b) := by
  simp only [decodeHreq, encodeHreq, be16_hi_lo]

theorem decode_encode_cmdSync (crc : Word16) (P : Params) : decode .cmd (encode (.cmdSync crc) P) P = .ok (.cmdSync crc) := by
  simp [decode, encode, encodeCmd, decodeCmd, be16_hi_lo]

theorem decode_encode_cmdRaw (crc : Word16) {P : Params} (h : P.opcRaw ≠ P.opcSync) :
    decode .cmd (encode (.cmdRaw crc) P) P = .ok (.cmdRaw crc) := by
  simp [decode, encode, encodeCmd, decodeCmd, be16_hi_lo, h]

theorem decode_encode_cmdTrigger (low high crc : Word16) {P : Params} (hs : P.opcTrigger ≠ P.opcSync) (hr : P.opcTrigger ≠ P.opcRaw) :
    decode .cmd (encode (.cmdTrigger low high crc) P) P = .ok (.cmdTrigger low high crc) := by
  simp [decode, encode, encodeCmd, decodeCmd, be16_hi_lo, hs, hr]

/-- Where the kinds have different tags, each named tag has its own row (R77). -/
theorem rspInstr_named {P : Params} (h : (namedKinds P).Nodup) (value crc : Word16) :
    rspInstr P.kindSensorValue value crc P = .rspSensorValue value crc ∧ rspInstr P.kindSyncOk value crc P = .rspSyncOk value crc ∧
      rspInstr P.kindRawAck value crc P = .rspRawAck value crc ∧ rspInstr P.kindTriggerAck value crc P = .rspTriggerAck value crc ∧
      rspInstr P.kindUnknownCommand value crc P = .rspUnknownCommand value crc ∧
      rspInstr P.kindCrcMismatch value crc P = .rspCrcMismatch value crc ∧ rspInstr P.kindWrongSize value crc P = .rspWrongSize value crc := by
  -- the tests of `rspInstr` compare a later tag with an earlier one, as the reversed list does
  have hne := List.nodup_reverse.2 h
  simp only [namedKinds, List.reverse_cons, List.reverse_nil, List.nil_append, List.cons_append, List.nodup_cons, List.mem_cons,
    List.not_mem_nil, or_false, not_or] at hne
  simp [rspInstr, hne]

/-- A tag outside the table has the catch-all row (R83). -/
theorem rspInstr_undefined {P : Params} {kind : Byte} (h : kind ∉ namedKinds P) (value crc : Word16) :
    rspInstr kind value crc P = .rspUndefinedKind kind value crc := by
  simp only [namedKinds, List.mem_cons, List.not_mem_nil, or_false, not_or] at h
  simp [rspInstr, h]

/-- From 0x08 on, only the code's highest set bit decides its row (R84). -/
theorem hreqInstr_reserved {op : Byte} (h : 0x08 ≤ op) (a b : Word16) :
    hreqInstr op a b =
      if op < 0x10 then .reserved08 (op.extractLsb' 0 3) a b
      else if op < 0x20 then .reserved10 (op.extractLsb' 0 4) a b
      else if op < 0x40 then .reserved20 (op.extractLsb' 0 5) a b
      else if op < 0x80 then .reserved40 (op.extractLsb' 0 6) a b
      else .reserved80 (op.extractLsb' 0 7) a b := by
  have hne : ∀ k : Byte, k < 0x08 → op ≠ k := fun k hk he => absurd (he ▸ h) (BitVec.not_le.2 hk)
  simp only [hreqInstr, hne _ (show Config.opOpenAndSync < 0x08 by decide), hne _ (show Config.opSetRawMode < 0x08 by decide),
    hne _ (show Config.opSetTriggerMode < 0x08 by decide), hne _ (show Config.opReadSensorValue < 0x08 by decide),
    hne _ (show Config.opCrc16 < 0x08 by decide), hne _ (show Config.opSetDebug < 0x08 by decide),
    hne _ (show Config.opClose < 0x08 by decide), hne 0x00 (by decide), if_false]

theorem hreqInstr_reserved08 (low : BitVec 3) (a b : Word16) : hreqInstr (reservedOp08 low) a b = .reserved08 low a b := by
  have h : 0x08 ≤ reservedOp08 low ∧ reservedOp08 low < 0x10 ∧ (reservedOp08 low).extractLsb' 0 3 = low := by revert low; decide
  obtain ⟨hge, hlt, hlow⟩ := h
  rw [hreqInstr_reserved hge, if_pos hlt, hlow]

theorem hreqInstr_reserved10 (low : BitVec 4) (a b : Word16) : hreqInstr (reservedOp10 low) a b = .reserved10 low a b := by
  have h : 0x08 ≤ reservedOp10 low ∧ ¬ reservedOp10 low < 0x10 ∧ reservedOp10 low < 0x20 ∧
    (reservedOp10 low).extractLsb' 0 4 = low := by revert low; decide
  obtain ⟨hge, h10, hlt, hlow⟩ := h
  rw [hreqInstr_reserved hge, if_neg h10, if_pos hlt, hlow]

theorem hreqInstr_reserved20 (low : BitVec 5) (a b : Word16) : hreqInstr (reservedOp20 low) a b = .reserved20 low a b := by
  have h : 0x08 ≤ reservedOp20 low ∧ ¬ reservedOp20 low < 0x10 ∧ ¬ reservedOp20 low < 0x20 ∧ reservedOp20 low < 0x40 ∧
    (reservedOp20 low).extractLsb' 0 5 = low := by revert low; decide
  obtain ⟨hge, h10, h20, hlt, hlow⟩ := h
  rw [hreqInstr_reserved hge, if_neg h10, if_neg h20, if_pos hlt, hlow]

theorem hreqInstr_reserved40 (low : BitVec 6) (a b : Word16) : hreqInstr (reservedOp40 low) a b = .reserved40 low a b := by
  have h : 0x08 ≤ reservedOp40 low ∧ ¬ reservedOp40 low < 0x10 ∧ ¬ reservedOp40 low < 0x20 ∧ ¬ reservedOp40 low < 0x40 ∧
    reservedOp40 low < 0x80 ∧ (reservedOp40 low).extractLsb' 0 6 = low := by revert low; decide
  obtain ⟨hge, h10, h20, h40, hlt, hlow⟩ := h
  rw [hreqInstr_reserved hge, if_neg h10, if_neg h20, if_neg h40, if_pos hlt, hlow]

theorem hreqInstr_reserved80 (low : BitVec 7) (a b : Word16) : hreqInstr (reservedOp80 low) a b = .reserved80 low a b := by
  have h : 0x08 ≤ reservedOp80 low ∧ ¬ reservedOp80 low < 0x10 ∧ ¬ reservedOp80 low < 0x20 ∧ ¬ reservedOp80 low < 0x40 ∧
    ¬ reservedOp80 low < 0x80 ∧ (reservedOp80 low).extractLsb' 0 7 = low := by revert low; decide
  obtain ⟨hge, h10, h20, h40, h80, hlow⟩ := h
  rw [hreqInstr_reserved hge, if_neg h10, if_neg h20, if_neg h40, if_neg h80, hlow]

/-- A well-formed instruction's word decodes to it, where the parameters tell the kinds and the opcodes apart. -/
theorem decode_encode {P : Params} (hP : P.Unambiguous) (i : Instr) (hw : i.wellFormed P = true) :
    decode i.format (encode i P) P = .ok i := by
  obtain ⟨hkinds, hopcodes⟩ := hP
  have hrsp := rspInstr_named hkinds
  simp only [List.nodup_cons, List.mem_cons, List.not_mem_nil, or_false, not_or] at hopcodes
  obtain ⟨⟨hsr, hst⟩, hrt, -⟩ := hopcodes
  cases i with
  | cmdSync crc => exact decode_encode_cmdSync crc P
  | cmdRaw crc => exact decode_encode_cmdRaw crc (Ne.symm hsr)
  | cmdTrigger low high crc => exact decode_encode_cmdTrigger low high crc (Ne.symm hst) (Ne.symm hrt)
  | rspUndefinedKind kind value crc =>
    have hkind : kind ∉ namedKinds P := by
      simp only [Instr.wellFormed, Bool.and_eq_true, Bool.not_eq_true', List.contains_eq_mem, decide_eq_false_iff_not] at hw
      exact hw.1
    exact (decodeRsp_encodeRsp ..).trans (congrArg _ (rspInstr_undefined hkind value crc))
  | rspSensorValue value crc | rspSyncOk value crc | rspRawAck value crc | rspTriggerAck value crc | rspUnknownCommand value crc
  | rspCrcMismatch value crc | rspWrongSize value crc =>
    exact (decodeRsp_encodeRsp ..).trans (congrArg _ (by simp only [hrsp]))
  | reserved08 low a b => exact (decodeHreq_encodeHreq ..).trans (congrArg _ (hreqInstr_reserved08 low a b))
  | reserved10 low a b => exact (decodeHreq_encodeHreq ..).trans (congrArg _ (hreqInstr_reserved10 low a b))
  | reserved20 low a b => exact (decodeHreq_encodeHreq ..).trans (congrArg _ (hreqInstr_reserved20 low a b))
  | reserved40 low a b => exact (decodeHreq_encodeHreq ..).trans (congrArg _ (hreqInstr_reserved40 low a b))
  | reserved80 low a b => exact (decodeHreq_encodeHreq ..).trans (congrArg _ (hreqInstr_reserved80 low a b))
  | openAndSync a b | setRawMode a b | setTriggerMode a b | readSensorValue a b | crc16 a b | setDebug a b | close a b | reserved00 a b =>
    exact decodeHreq_encodeHreq ..

/-- Settles O1: each row's word by `decode_encode`; the tags and the opcodes of this hardware are different. -/
theorem decodeInvertsEncode : Obligations.DecodeInvertsEncode :=
  ⟨fun i => decode_encode ⟨by decide, by decide⟩ i, fun _ i hP => decode_encode hP i⟩

/-! ### Encoding a decoded word -/

theorem encode_rspInstr (kind : Byte) (value crc : Word16) (P : Params) :
    (rspInstr kind value crc P).format = .rsp ∧ encode (rspInstr kind value crc P) P = encodeRsp kind value crc := by
  unfold rspInstr
  split_ifs with h1 h2 h3 h4 h5 h6 h7
  case neg => exact ⟨rfl, rfl⟩
  all_goals subst kind; exact ⟨rfl, rfl⟩

/-- Every request code is one of the seven named ones, 0x00, or its reserved row's fixed bits with the code's low bits (R80, R84). -/
theorem requestCode_rows (op : Byte) :
    op ∈ ([0, 1, 2, 3, 4, 5, 6, 7] : List Byte) ∨ reservedOp08 (op.extractLsb' 0 3) = op ∨ reservedOp10 (op.extractLsb' 0 4) = op ∨
      reservedOp20 (op.extractLsb' 0 5) = op ∨ reservedOp40 (op.extractLsb' 0 6) = op ∨ reservedOp80 (op.extractLsb' 0 7) = op := by
  revert op
  decide +kernel

theorem encode_hreqInstr (op : Byte) (a b : Word16) (P : Params) :
    (hreqInstr op a b).format = .hreq ∧ encode (hreqInstr op a b) P = encodeHreq op a b := by
  rcases requestCode_rows op with h | h | h | h | h | h
  · simp only [List.mem_cons, List.not_mem_nil, or_false] at h
    rcases h with rfl | rfl | rfl | rfl | rfl | rfl | rfl | rfl <;> exact ⟨rfl, rfl⟩
  · rw [← h, hreqInstr_reserved08]
    exact ⟨rfl, rfl⟩
  · rw [← h, hreqInstr_reserved10]
    exact ⟨rfl, rfl⟩
  · rw [← h, hreqInstr_reserved20]
    exact ⟨rfl, rfl⟩
  · rw [← h, hreqInstr_reserved40]
    exact ⟨rfl, rfl⟩
  · rw [← h, hreqInstr_reserved80]
    exact ⟨rfl, rfl⟩

/-- A command packet that decodes: its row, and that it is the encoding of it (R71, R75, R76). -/
theorem encode_of_decodeCmd {bytes : List Byte} {i : Instr} {P : Params} (h : decodeCmd bytes P = .ok i) :
    i.format = .cmd ∧ encode i P = bytes := by
  unfold decodeCmd at h
  split at h
  case h_2 => cases h
  split_ifs at h with hs hz hr hz ht
  · cases h
    obtain ⟨rfl, rfl, rfl, rfl⟩ := hz
    exact ⟨rfl, by simp [encode, encodeCmd, hi_be16, lo_be16, hs]⟩
  · cases h
    obtain ⟨rfl, rfl, rfl, rfl⟩ := hz
    exact ⟨rfl, by simp [encode, encodeCmd, hi_be16, lo_be16, hr]⟩
  · cases h
    exact ⟨rfl, by simp only [encode, encodeCmd, hi_be16, lo_be16, ht]⟩

theorem encode_of_decodeRsp {bytes : List Byte} {i : Instr} {P : Params} (h : decodeRsp bytes P = .ok i) :
    i.format = .rsp ∧ encode i P = bytes := by
  unfold decodeRsp at h
  split at h <;> cases h
  rename_i kind v1 v0 c1 c0
  obtain ⟨hf, he⟩ := encode_rspInstr kind (be16 v1 v0) (be16 c1 c0) P
  exact ⟨hf, by rw [he]; simp only [encodeRsp, hi_be16, lo_be16]⟩

theorem encode_of_decodeHreq {bytes : List Byte} {i : Instr} (P : Params) (h : decodeHreq bytes = .ok i) :
    i.format = .hreq ∧ encode i P = bytes := by
  unfold decodeHreq at h
  split at h <;> cases h
  rename_i op a1 a0 b1 b0
  obtain ⟨hf, he⟩ := encode_hreqInstr op (be16 a1 a0) (be16 b1 b0) P
  exact ⟨hf, by rw [he]; simp only [encodeHreq, hi_be16, lo_be16]⟩

/-- Settles O2, decoder by decoder. -/
theorem encodeInvertsDecode : Obligations.EncodeInvertsDecode := by
  intro P f bytes i h
  cases f with
  | cmd => exact encode_of_decodeCmd h
  | rsp => exact encode_of_decodeRsp h
  | hreq => exact encode_of_decodeHreq P h

/-- The response row of a tag holds that tag and its value (R83). -/
theorem rspInstr_response (kind : Byte) (value crc : Word16) : (rspInstr kind value crc).response = some (kind, value) := by
  unfold rspInstr
  split_ifs with h1 h2 h3 h4 h5 h6 h7
  case neg => rfl
  all_goals subst kind; rfl

/-- Settles O4: the rows are those of `hreqInstr` and `rspInstr`. -/
theorem everyRequestAndResponseDecodes : Obligations.EveryRequestAndResponseDecodes :=
  ⟨fun op a b => ⟨_, decodeHreq_encodeHreq op a b, decodeHreq_code op a b⟩,
    fun kind value crc => ⟨_, decodeRsp_encodeRsp kind value crc Config.params, rspInstr_response kind value crc⟩⟩

/-- Settles O5: each word is evaluated. -/
theorem specWordsDecode : Obligations.SpecWordsDecode := by
  unfold Obligations.SpecWordsDecode
  decide

end Sys2Proof
end

section
/-! SUPPORT. The fixed bits of every word (30_encoding.md R71, R72, R80; the rows of spec/opcode_table.json). -/

namespace Sys2Proof.Machine

/-! ### Byte sequences as numbers -/

theorem beNat_append (xs ys : List Byte) : beNat (xs ++ ys) = beNat xs * 256 ^ ys.length + beNat ys := by
  induction ys using List.reverseRecOn with
  | nil => simp [beNat]
  | append_singleton ys y ih =>
    simp only [beNat, ← List.append_assoc, List.foldl_append, List.foldl_cons, List.foldl_nil, List.length_append, List.length_singleton] at ih ⊢
    rw [ih, pow_succ]
    ring

theorem beNat_lt (xs : List Byte) : beNat xs < 256 ^ xs.length := by
  induction xs using List.reverseRecOn with
  | nil => simp [beNat]
  | append_singleton xs x ih =>
    have hx := x.isLt
    rw [beNat_append, List.length_append, pow_add]
    simp only [List.length_singleton, pow_one, beNat, List.foldl_cons, List.foldl_nil, zero_mul, zero_add] at ih ⊢
    omega

/-- A mask over the leading bytes reads those bytes alone. -/
theorem beNat_append_and (xs ys : List Byte) (m : Nat) {n : Nat} (hn : ys.length = n) :
    beNat (xs ++ ys) &&& m * 256 ^ n = (beNat xs &&& m) * 256 ^ n := by
  have hlt := beNat_lt ys
  have hpow : 256 ^ n = 2 ^ (8 * n) := by rw [pow_mul]; rfl
  rw [beNat_append]
  rw [hn, hpow] at hlt ⊢
  apply Nat.eq_of_testBit_eq
  intro j
  rw [Nat.testBit_and, mul_comm (beNat xs), Nat.testBit_two_pow_mul_add _ hlt, Nat.testBit_mul_two_pow, Nat.testBit_mul_two_pow, Nat.testBit_and]
  by_cases hj : j < 8 * n
  · simp [hj, Nat.not_le.2 hj]
  · simp [hj, Nat.le_of_not_lt hj]

end Sys2Proof.Machine

namespace Sys2Proof

open Machine

/-! ### The rows -/

/-- The fixed bits of a five-byte word are in its first byte. -/
theorem beNat_first_and (b b1 b2 b3 b4 : Byte) (m : Nat) :
    beNat [b, b1, b2, b3, b4] &&& m * 256 ^ 4 = (b.toNat &&& m) * 256 ^ 4 := by
  simpa [beNat] using beNat_append_and [b] [b1, b2, b3, b4] m rfl

theorem reservedOp_fixedBits :
    (∀ low, (reservedOp08 low).toNat &&& 0xF8 = 0x08) ∧ (∀ low, (reservedOp10 low).toNat &&& 0xF0 = 0x10) ∧
      (∀ low, (reservedOp20 low).toNat &&& 0xE0 = 0x20) ∧ (∀ low, (reservedOp40 low).toNat &&& 0xC0 = 0x40) ∧
      ∀ low, (reservedOp80 low).toNat &&& 0x80 = 0x80 := by
  decide

/-- Every instruction's word has its row's fixed bits. -/
theorem encode_and_mask (i : Instr) : beNat (encode i) &&& i.row.2.2 = i.row.2.1 := by
  obtain ⟨h08, h10, h20, h40, h80⟩ := reservedOp_fixedBits
  cases i with
  | cmdSync crc => exact beNat_append_and [0x30, 0, 0, 0, 0] [hi crc, lo crc] 0xFFFFFFFFFF (n := 2) rfl
  | cmdRaw crc => exact beNat_append_and [0x10, 0, 0, 0, 0] [hi crc, lo crc] 0xFFFFFFFFFF (n := 2) rfl
  | cmdTrigger low high crc => exact beNat_append_and [0x20] [hi low, lo low, hi high, lo high, hi crc, lo crc] 0xFF (n := 6) rfl
  | rspUndefinedKind kind value crc => exact Nat.and_zero _
  | reserved08 low a b => exact (beNat_first_and _ _ _ _ _ 0xF8).trans (congrArg (· * 256 ^ 4) (h08 low))
  | reserved10 low a b => exact (beNat_first_and _ _ _ _ _ 0xF0).trans (congrArg (· * 256 ^ 4) (h10 low))
  | reserved20 low a b => exact (beNat_first_and _ _ _ _ _ 0xE0).trans (congrArg (· * 256 ^ 4) (h20 low))
  | reserved40 low a b => exact (beNat_first_and _ _ _ _ _ 0xC0).trans (congrArg (· * 256 ^ 4) (h40 low))
  | reserved80 low a b => exact (beNat_first_and _ _ _ _ _ 0x80).trans (congrArg (· * 256 ^ 4) (h80 low))
  | _ => exact beNat_first_and _ _ _ _ _ 0xFF

/-- Settles O3: a word that decodes is an instruction's word. -/
theorem decodedWordMatchesTableRow : Obligations.DecodedWordMatchesTableRow := by
  intro f bytes i h
  obtain ⟨-, rfl⟩ := encodeInvertsDecode Config.params f bytes i h
  exact encode_and_mask i

end Sys2Proof
end

section
/-! SUPPORT. The command rows (30_encoding.md R71, R74; 44_commands.md R181 to R186), the response rows of another kind than the one awaited
(30_encoding.md R83), and what the host reads (10_state.md R37; 30_encoding.md R81). -/

namespace Sys2Proof.Machine

/-- A well-formed command row builds the packet that is its own word (R71, R74). -/
theorem exec_command_row {i : Instr} (hf : i.format = .cmd) (hw : i.wellFormed = true) (s : State) :
    ∃ (opc : Byte) (low high : Word16), exec i s = .next (buildCmd opc low high s) ∧ encode i = cmdPacket opc low high := by
  cases i with
  | cmdSync crc =>
    obtain rfl : crc = cmdCrc 0x30 0 0 := eq_of_beq hw
    exact ⟨0x30, 0, 0, rfl, rfl⟩
  | cmdRaw crc =>
    obtain rfl : crc = cmdCrc 0x10 0 0 := eq_of_beq hw
    exact ⟨0x10, 0, 0, rfl, rfl⟩
  | cmdTrigger low high crc =>
    obtain ⟨-, hcrc⟩ := (Bool.and_eq_true _ _).mp hw
    obtain rfl : crc = cmdCrc 0x20 low high := eq_of_beq hcrc
    exact ⟨0x20, low, high, rfl, rfl⟩
  | _ => cases hf

/-- Settles O12: the packet a row builds is `cmdPacket`, which is evaluated for the spec's four packets. -/
theorem commandPacketIsItsWord : Obligations.CommandPacketIsItsWord := by
  refine ⟨fun i s hf hw => ?_, by decide +kernel, by decide +kernel, by decide +kernel, by decide +kernel⟩
  obtain ⟨opc, low, high, hexec, hword⟩ := exec_command_row hf hw s
  exact ⟨_, hexec, hword.symm, cmdPacket_length opc low high⟩

/-- A response row of another kind than the one awaited ends the operation with that operation's own fatal error (R83, R216). -/
theorem exec_of_ne_wanted {i : Instr} {x : Exchange} {kind : Byte} {value : Word16} {s : State} (hi : i.response = some (kind, value))
    (hp : s.point = .awaiting x) (hk : kind ≠ x.wanted) :
    exec i s = .next (s.desync.ended x.op (Status.ofError x.mismatch) (kind.setWidth 16) 0) := by
  have hrespond : respond kind value s = complete x.op (judge x kind value s) := by simp only [respond, hp]
  rw [exec_response i kind value s hi, hrespond, judge_of_ne_wanted hk, complete_raise, raiseEffect_fatal _ _ _ (.inr x.mismatch_cls)]
  rfl

/-- Settles O14: each clause is `exec_of_ne_wanted` at its exchange. -/
theorem unexpectedKindIsFatal : Obligations.UnexpectedKindIsFatal := fun _ _ _ _ hi =>
  ⟨exec_of_ne_wanted (x := .echo) hi, exec_of_ne_wanted (x := .rawMode) hi, exec_of_ne_wanted (x := .triggerMode) hi,
    exec_of_ne_wanted (x := .reading) hi⟩

/-- Settles O49: HRSP and the host view are copies by definition, and an operation's end writes the fields that HRSP copies. -/
theorem hrspCopiesFields : Obligations.HrspCopiesFields :=
  ⟨fun _ => rfl, rfl, rfl, rfl, rfl, rfl, fun _ _ _ _ _ => rfl, fun _ => rfl, rfl, rfl, rfl, rfl, rfl⟩

end Sys2Proof.Machine
end

section
/-! SUPPORT. Every event the engine records is legal (20_memory.md R56; 30_encoding.md R76, R82; 41_link_and_codec.md R116 to R121). -/

namespace Sys2Proof.Machine

/-! ### Events -/

theorem SendsCommand.length {frame : List Byte} (h : SendsCommand frame) : frame.length = 9 := by
  rcases h with rfl | rfl | ⟨low, high, -, rfl⟩ <;> exact encoded_length ..

theorem Event.ReadOf.legal {n : Nat} {e : Event} (h : e.ReadOf n) (hn : n = 1 ∨ n = 7) : e.Legal := by
  obtain ⟨r, rfl⟩ := h
  exact ⟨hn, fun _ => ReadResult.within_length⟩

theorem Event.SendOf.legal {frame : List Byte} {e : Event} (h : e.SendOf frame) (hf : SendsCommand frame) : e.Legal := by
  obtain ⟨r, rfl⟩ := h
  exact ⟨hf, hf.length, fun _ hr => hf.length ▸ WriteResult.within_count hr⟩

theorem Event.Reading.legal {e : Event} (h : e.Reading) : e.Legal := by
  rcases h with h | h
  · exact h.legal (.inr rfl)
  · exact h.legal (.inl rfl)

theorem Event.Exchanging.legal {frame : List Byte} {e : Event} (h : e.Exchanging frame) (hf : SendsCommand frame) : e.Legal := by
  rcases h with h | h
  · exact h.legal hf
  · exact h.legal

theorem Event.Syncing.legal {frame : List Byte} {e : Event} (h : e.Syncing frame) (hf : SendsCommand frame) : e.Legal := by
  rcases h with h | rfl | ⟨r, rfl⟩
  · exact h.legal hf
  · rfl
  · exact .inr ⟨rfl, rfl⟩

theorem closing_legal {s : State} {e : Event} (h : e ∈ closing s) : e.Legal := by
  unfold closing at h
  split at h
  · rw [List.mem_singleton.1 h]
    trivial
  · cases h

/-! ### Stretches of an operation -/

theorem State.TraceLegal.append {s t : State} {es : List Event} (h : s.TraceLegal) (ht : t.trace = s.trace ++ es)
    (hes : ∀ e ∈ es, e.Legal) : t.TraceLegal := by
  intro e he
  rw [ht] at he
  rcases List.mem_append.1 he with he | he
  · exact h e he
  · exact hes e he

theorem Ran.traceLegal {P : Event → Prop} {pkt frame : List Byte} {s t : State} (ht : Ran P pkt frame s t) (hP : ∀ e, P e → e.Legal)
    (h : s.TraceLegal) : t.TraceLegal := by
  obtain ⟨es, htr, hes, -⟩ := ht.trace
  exact h.append htr fun e he => hP e (hes e he)

theorem Opened.traceLegal {s t : State} (ht : Opened Config.codec s t) (h : s.TraceLegal) : t.TraceLegal := by
  obtain ⟨l, g, y, n, k, c, pkt, frame, x, p, w, o, pt, es, -, -, hes, rfl⟩ := ht
  have hclose : ({ s with trace := s.trace ++ closing s } : State).TraceLegal := h.append rfl fun _ => closing_legal
  refine hclose.append rfl fun e he => ?_
  rcases hes with ⟨r, rfl, -⟩ | ⟨r, rest, rfl, -, hrest⟩
  · rw [List.mem_singleton.1 he]
    trivial
  · rcases List.mem_cons.1 he with rfl | he
    · trivial
    rcases List.mem_cons.1 he with rfl | he
    · exact .inl ⟨rfl, rfl⟩
    · exact (hrest e he).legal (.inl rfl)

@[simp] theorem raiseEffect_trace (op : Byte) (e : Raise) (s : State) : (raiseEffect op e s).trace = s.trace := by
  rcases raiseEffect_spec op e s with ⟨h, -⟩ | ⟨h, -⟩
  · rw [h, State.desync_trace]
  · rw [h]

/-- `DONE` is legal where its status is consistent (R205, R212). -/
theorem State.TraceLegal.ended {s : State} {st : Status} (h : s.TraceLegal) (op : Byte) (a b : Word16) (hst : st.Consistent) :
    (s.ended op st a b).TraceLegal :=
  h.append rfl fun e he => by rw [List.mem_singleton.1 he]; exact hst

/-- A success may write other fields before its `DONE` (R205). -/
theorem State.TraceLegal.succeeded {s u : State} (h : s.TraceLegal) (op : Byte) (ht : u.trace = s.trace) :
    (u.ended op Status.success 0 0).TraceLegal :=
  State.TraceLegal.ended (h.append (es := []) (by simp [ht]) (by simp)) op 0 0 Status.success_consistent

theorem State.TraceLegal.raised {s : State} (h : s.TraceLegal) (op : Byte) (e : Raise) :
    ((raiseEffect op e s).ended op (Status.ofError e.code) e.a e.b).TraceLegal :=
  State.TraceLegal.ended (h.append (es := []) (by simp) (by simp)) op e.a e.b (Status.ofError_consistent e.code)

/-- Completion keeps a legal trace legal. -/
theorem complete_traceLegal {r : OpRes} (op : Byte) (h : r.state.TraceLegal) : (complete op r).TraceLegal := by
  cases r with
  | ok v s =>
    rw [complete_ok]
    exact h.succeeded op rfl
  | raise e s =>
    rw [complete_raise]
    exact h.raised op e
  | running s => exact h

/-! ### Requests and steps -/

/-- However a request ends, or rests in its drain, its trace is legal. -/
theorem RequestOutcome.traceLegal {s t : State} {op : Byte} (ht : RequestOutcome s op t) (h : s.TraceLegal) : t.TraceLegal := by
  have hs : s.accepted.TraceLegal := h
  cases ht with
  | draining u hu hd => exact hu.traceLegal hs
  | synced u hu hl hr hy => exact (hu.traceLegal hs).succeeded 0x01 rfl
  | rawMode u p f hy hu => exact (hu.traceLegal (fun _ he => he.legal (.inr (.inl rfl))) hs).succeeded 0x02 rfl
  | triggerMode u p f low high hy hl hu =>
    exact (hu.traceLegal (fun _ he => he.legal (.inr (.inr ⟨low, high, hl, rfl⟩))) hs).succeeded 0x03 rfl
  | reading u value hy hm hu => exact (hu.traceLegal (fun _ he => he.legal) hs).succeeded 0x04 rfl
  | crc reg c drawn => exact h.succeeded 0x05 rfl
  | debug flag => exact h.succeeded 0x06 rfl
  | closed => exact State.TraceLegal.succeeded (h.append rfl fun _ => closing_legal) 0x07 rfl
  | usage op c a b hc hu => exact h.ended op a b (Status.ofError_consistent c)
  | openFailed e u hc hu => exact State.TraceLegal.ended (hu.traceLegal hs) 0x01 e.a e.b (Status.ofError_consistent e.code)
  | modeFailed op opc low high e u p f ho hy hc hcls hu =>
    have hsends : SendsCommand (Config.codec.enc (cmdPacket opc low high)) := by
      rcases ho with ⟨-, rfl, rfl, rfl⟩ | ⟨-, rfl, hl⟩
      · exact .inr (.inl rfl)
      · exact .inr (.inr ⟨low, high, hl, rfl⟩)
    exact (hu.traceLegal (fun _ he => he.legal hsends) hs).raised op e
  | readFailed e u hy hm hc hcls hu => exact (hu.traceLegal (fun _ he => he.legal) hs).raised 0x04 e

/-- The rest of a bring-up sends the SYNC packet that the invariant puts in its buffer (R38, R140). -/
theorem drainAndEcho_traceLegal {s : State} (h : s.TraceLegal) (hpkt : s.txPkt = cmdPacket 0x30 0 0) :
    (drainAndEcho Config.codec s).state.TraceLegal := by
  rcases drainAndEcho_spec Config.codec s with ⟨o, es, hes, hd⟩ | ⟨frame, t, -, ht, hd⟩
  · rw [hd]
    exact h.append rfl fun e he => (hes e he).legal (.inl rfl)
  · rw [hpkt] at ht
    have htrace : t.TraceLegal := ht.traceLegal (fun _ he => he.legal (.inl rfl)) h
    rcases hd with hd | ⟨e, -, hd | hd⟩ <;> rw [hd] <;> exact htrace

theorem judge_traceLegal (x : Exchange) (kind : Byte) (value : Word16) {s : State} (h : s.TraceLegal) :
    (judge x kind value s).state.TraceLegal := by
  rcases judge_spec x kind value s with ⟨e, hj, -⟩ | ⟨-, hj⟩ | ⟨-, hj⟩ | ⟨-, hj⟩ | ⟨-, hj⟩ <;> rw [hj] <;> exact h

theorem Received.traceLegal {s u : State} (hu : Received s u) (h : s.TraceLegal) : u.TraceLegal :=
  hu.ran.traceLegal (fun _ he => he.legal) h

/-- A step with no reset in it keeps the trace legal. -/
theorem RunOutcome.traceLegal {s t : State} (ht : RunOutcome s t) (hinv : s.Inv) (h : s.TraceLegal) : t.TraceLegal := by
  cases ht with
  | waiting hp hq => exact h
  | accepted hp hb r rest op t hq ht => exact ht.traceLegal h
  | built command hp opc low high => exact h
  | drained hp hw =>
    have hat := hinv.atPoint
    simp only [State.AtPoint, hp] at hat
    obtain ⟨-, -, -, -, -, hpkt⟩ := hat
    exact complete_traceLegal 0x01 (drainAndEcho_traceLegal h hpkt)
  | judged x hp u hu kind value => exact complete_traceLegal x.op (judge_traceLegal x kind value (hu.traceLegal h))
  | refused x hp u hu e he => exact complete_traceLegal (r := .raise e u) x.op (hu.traceLegal h)

theorem State.reset_traceLegal (q : List Request) (o : Oracle) (n : List Nat) :
    ({ State.reset with requests := q, oracle := o, resets := n } : State).TraceLegal := fun _ he => absurd he List.not_mem_nil

/-- Cutting a step off leaves the reset state's empty trace, or the step's own trace (R240). -/
theorem cutAt_traceLegal (k : Nat) (s : State) {u : State} (h : u.TraceLegal) : (s.cutAt k u).TraceLegal := by
  rcases cutAt_spec k s u with ⟨o, hc⟩ | ⟨n, hc⟩ <;> rw [hc]
  · exact State.reset_traceLegal u.requests o u.resets.tail
  · exact h

/-- Settles O52: each way a step can go on appends legal events only; the invariant is needed for the drain, whose echo sends the packet
that the buffer holds. -/
theorem stepKeepsTraceLegal : Obligations.StepKeepsTraceLegal := by
  intro s t hinv h hstep
  rcases step_cases s t hstep with ⟨-, ht⟩ | ⟨rest, -, rfl⟩ | ⟨k, rest, u, -, hu, rfl⟩
  · exact ht.traceLegal hinv h
  · exact State.reset_traceLegal s.requests s.oracle s.resets.tail
  · exact cutAt_traceLegal k s (hu.traceLegal hinv h)

end Sys2Proof.Machine
end

section
/-! SUPPORT. The CRC generator is linear over GF(2) in its register and its data together, and each of its rounds can be undone (40_crc.md R100,
R103); `CRC_BYTESWAP` acts on the result alone (R105). -/

namespace Sys2Proof.Machine

/-! ### Linearity -/

/-- A round is linear: the feedback bit of an XOR is the XOR of the feedback bits (R100). -/
theorem crcShift_xor {w : Nat} (a b : BitVec w) (p q : Bool) (P : Params) :
    crcShift (a ^^^ b) (p ^^ q) P = crcShift a p P ^^^ crcShift b q P := by
  simp only [crcShift, BitVec.getLsbD_xor, BitVec.ushiftRight_xor_distrib]
  have hfeedback : ((a.getLsbD 0 ^^ b.getLsbD 0) ^^ (p ^^ q)) = ((a.getLsbD 0 ^^ p) ^^ (b.getLsbD 0 ^^ q)) := by
    simp only [Bool.xor_assoc, Bool.xor_left_comm]
  rw [hfeedback]
  cases a.getLsbD 0 ^^ p <;> cases b.getLsbD 0 ^^ q
  · rfl
  · exact BitVec.xor_assoc _ _ _
  · simp only [Bool.xor_false, if_true, if_false, Bool.false_eq_true]
    ac_rfl
  · simp only [Bool.xor_self, if_true, if_false, Bool.false_eq_true]
    have hcancel (u v poly : BitVec w) : (u ^^^ poly) ^^^ (v ^^^ poly) = u ^^^ v := by
      rw [BitVec.xor_comm v, BitVec.xor_assoc, ← BitVec.xor_assoc poly, BitVec.xor_self, BitVec.zero_xor]
    exact (hcancel _ _ _).symm

theorem crcBits_xor {w : Nat} (k : Nat) (a b : BitVec w) (d e : Byte) (P : Params) :
    crcBits k (a ^^^ b) (d ^^^ e) P = crcBits k a d P ^^^ crcBits k b e P := by
  induction k generalizing a b d e with
  | zero => rfl
  | succ k ih => simp only [crcBits, BitVec.getLsbD_xor, BitVec.ushiftRight_xor_distrib, crcShift_xor, ih]

theorem crcByte_xor {w : Nat} (a b : BitVec w) (d e : Byte) (P : Params) :
    crcByte (a ^^^ b) (d ^^^ e) P = crcByte a d P ^^^ crcByte b e P := crcBits_xor 8 a b d e P

@[simp] theorem crcRun_nil {w : Nat} (reg : BitVec w) (P : Params) : crcRun reg [] P = reg := rfl

@[simp] theorem crcRun_cons {w : Nat} (reg : BitVec w) (d : Byte) (data : List Byte) (P : Params) :
    crcRun reg (d :: data) P = crcRun (crcByte reg d P) data P := rfl

theorem crcRun_append {w : Nat} (reg : BitVec w) (xs ys : List Byte) (P : Params) :
    crcRun reg (xs ++ ys) P = crcRun (crcRun reg xs P) ys P := List.foldl_append

/-- The bytewise XOR of two inputs. -/
abbrev xorBytes (x y : List Byte) : List Byte := List.zipWith (· ^^^ ·) x y

theorem crcRun_xorBytes {w : Nat} (a b : BitVec w) {x y : List Byte} (h : x.length = y.length) (P : Params) :
    crcRun (a ^^^ b) (xorBytes x y) P = crcRun a x P ^^^ crcRun b y P := by
  induction x generalizing a b y with
  | nil =>
    rw [List.length_eq_zero_iff.1 h.symm]
    rfl
  | cons d x ih =>
    cases y with
    | nil => simp at h
    | cons e y =>
      simp only [List.zipWith_cons_cons, crcRun_cons, crcByte_xor]
      exact ih _ _ (by simpa using h)

theorem xorBytes_zeros (z : List Byte) : xorBytes z (List.replicate z.length 0x00) = z := by
  induction z with
  | nil => rfl
  | cons d z ih => simpa [List.replicate_succ] using ih

/-- The register after the XOR of two inputs: it starts at `I`, which is `(I ^ I) ^ I` (R103). -/
theorem crcRun_affine {w : Nat} (I : BitVec w) {x y : List Byte} (h : x.length = y.length) (P : Params) :
    crcRun I (xorBytes x y) P = crcRun I x P ^^^ crcRun I y P ^^^ crcRun I (List.replicate x.length 0x00) P := by
  have hz : (xorBytes x y).length = x.length := by simp [h]
  rw [← crcRun_xorBytes I I h, ← hz, ← crcRun_xorBytes _ _ (by simp), xorBytes_zeros, BitVec.xor_self, BitVec.zero_xor]

/-! ### No round loses the register -/

/-- The generator's top bit is 1 and the shift brings in a 0, so the round's top bit is its feedback bit (R100). -/
theorem crcShift_top (reg : Word16) (bit : Bool) : (crcShift reg bit).getLsbD 15 = (reg.getLsbD 0 ^^ bit) := by
  unfold crcShift
  split
  next hfeedback =>
    have hpoly : (BitVec.ofNat 16 Config.params.crcPoly).getLsbD 15 = true := by decide
    rw [hfeedback, BitVec.getLsbD_xor, hpoly, BitVec.getLsbD_ushiftRight, BitVec.getLsbD_of_ge _ _ (by decide), Bool.false_xor]
  next hfeedback =>
    rw [Bool.eq_false_of_not_eq_true hfeedback, BitVec.getLsbD_ushiftRight, BitVec.getLsbD_of_ge _ _ (by decide)]

theorem crcShift_injective (bit : Bool) {a b : Word16} (h : crcShift a bit = crcShift b bit) : a = b := by
  have hlow : a.getLsbD 0 = b.getLsbD 0 := by
    have htop := crcShift_top a bit
    rw [h, crcShift_top] at htop
    simpa using htop.symm
  have hshift : a >>> 1 = b >>> 1 := by
    simp only [crcShift, hlow] at h
    split at h
    · simpa using h
    · exact h
  apply BitVec.eq_of_getLsbD_eq
  intro i _
  cases i with
  | zero => exact hlow
  | succ i => simpa [Nat.add_comm] using congrArg (·.getLsbD i) hshift

theorem crcBits_injective (k : Nat) (d : Byte) {a b : Word16} (h : crcBits k a d = crcBits k b d) : a = b := by
  induction k generalizing a b d with
  | zero => exact h
  | succ k ih => exact crcShift_injective _ (ih _ h)

theorem crcRun_injective (data : List Byte) {a b : Word16} (h : crcRun a data = crcRun b data) : a = b := by
  induction data generalizing a b with
  | nil => exact h
  | cons d data ih => exact crcBits_injective 8 d (ih h)

/-- One flipped bit of a byte changes the register. -/
theorem crcByte_flip_ne (reg : Word16) (d : Byte) (k : Fin 8) : crcByte reg (d ^^^ BitVec.twoPow 8 k) ≠ crcByte reg d := by
  have hbit : ∀ k : Fin 8, crcByte (0 : Word16) (BitVec.twoPow 8 k) ≠ 0 := by decide
  intro h
  have hxor : crcByte reg (d ^^^ BitVec.twoPow 8 k) = crcByte reg d ^^^ crcByte 0 (BitVec.twoPow 8 k) := by
    rw [← crcByte_xor, show reg ^^^ 0 = reg from BitVec.xor_zero]
  exact hbit k ((BitVec.xor_right_inj (crcByte reg d)).1 ((hxor.symm.trans h).trans BitVec.xor_zero.symm))

/-- One flipped bit of the input changes the register (R103). -/
theorem crcRun_flip_ne (reg : Word16) (x : List Byte) (i : Nat) (k : Fin 8) (hi : i < x.length) :
    crcRun reg (x.set i (x.getD i 0x00 ^^^ BitVec.twoPow 8 k)) ≠ crcRun reg x := by
  intro h
  rw [List.set_eq_take_append_cons_drop, if_pos hi, List.getD_eq_getElem _ _ hi] at h
  have hx : x = x.take i ++ x[i] :: x.drop (i + 1) := by simp
  rw [congrArg (crcRun reg) hx] at h
  simp only [crcRun_append, crcRun_cons] at h
  exact crcByte_flip_ne _ _ k (crcRun_injective _ h)

/-! ### The byte swap -/

theorem be16_eq_append (h l : Byte) : be16 h l = h ++ l := by
  apply BitVec.eq_of_toNat_eq
  rw [BitVec.toNat_append, ← Nat.shiftLeft_add_eq_or_of_lt l.isLt, Nat.shiftLeft_eq]
  simp [be16]
  omega

theorem lo_eq_extract (c : Word16) : lo c = c.extractLsb' 0 8 := by
  apply BitVec.eq_of_toNat_eq
  simp [lo]

theorem hi_eq_extract (c : Word16) : hi c = c.extractLsb' 8 8 := by
  apply BitVec.eq_of_toNat_eq
  simp [hi, Nat.shiftRight_eq_div_pow]

theorem crcSwap_eq (P : Params) (c : Word16) : crcSwap P c = if P.crcByteswap then be16 (lo c) (hi c) else c := by
  rw [crcSwap, be16_eq_append, lo_eq_extract, hi_eq_extract]

theorem crcBits_congr {w : Nat} {P Q : Params} (h : P.crcPoly = Q.crcPoly) (k : Nat) (reg : BitVec w) (d : Byte) :
    crcBits k reg d P = crcBits k reg d Q := by
  induction k generalizing reg d with
  | zero => rfl
  | succ k ih => simp only [crcBits, crcShift, h, ih]

theorem crcRun_congr {w : Nat} {P Q : Params} (h : P.crcPoly = Q.crcPoly) (reg : BitVec w) (data : List Byte) :
    crcRun reg data P = crcRun reg data Q := by
  induction data generalizing reg with
  | nil => rfl
  | cons d data ih => simp only [crcRun_cons, crcByte, crcBits_congr h, ih]

/-- The value before the swap does not depend on the switch (R105). -/
theorem crcComplement_byteswap (P : Params) (v : Bool) (x : List Byte) (n : Nat) :
    crcComplement { P with crcByteswap := v } (crcRegister x n { P with crcByteswap := v }) = crcComplement P (crcRegister x n P) := by
  have hrun : crcRegister x n { P with crcByteswap := v } = crcRegister x n P := crcRun_congr rfl _ _
  rw [hrun]
  rfl

theorem crc16_byteswap (P : Params) (v : Bool) (x : List Byte) {n : Nat} (hn : n ≠ 0) :
    crc16 x n { P with crcByteswap := v } = crcSwap { P with crcByteswap := v } (crcComplement P (crcRegister x n P)) := by
  rw [crc16, if_neg hn, crcComplement_byteswap]

/-! ### The result -/

theorem crcShift_eq (reg : Word16) (bit : Bool) :
    crcShift reg bit = (reg >>> 1) ^^^ (if reg.getLsbD 0 = bit then 0x0000 else 0x8408) := by
  unfold crcShift
  cases reg.getLsbD 0 <;> cases bit <;> simp

/-- The affine law of the result: the complements of the three CRCs leave one (R103). -/
theorem crc16_xorBytes {x y : List Byte} (h : x.length = y.length) :
    crc16 (xorBytes x y) x.length =
      crc16 x x.length ^^^ crc16 y x.length ^^^ crc16 (List.replicate x.length 0x00) x.length := by
  have hxy : (xorBytes x y).length = x.length := by simp [h]
  have hzeros := crc16_of_length (List.replicate x.length 0x00)
  have hsum := crc16_of_length (xorBytes x y)
  rw [List.length_replicate] at hzeros
  rw [hxy, crcRun_affine _ h] at hsum
  rw [hsum, crc16_of_length x, h, crc16_of_length y, ← h, hzeros]
  generalize crcRun _ x = a, crcRun _ y = b, crcRun _ (List.replicate _ _) = c
  calc a ^^^ b ^^^ c ^^^ 0xFFFF
    _ = a ^^^ b ^^^ c ^^^ 0xFFFF ^^^ (0xFFFF ^^^ 0xFFFF) := by rw [BitVec.xor_self, BitVec.xor_zero]
    _ = (a ^^^ 0xFFFF) ^^^ (b ^^^ 0xFFFF) ^^^ (c ^^^ 0xFFFF) := by ac_rfl

/-- Settles O7. The generator is linear, so the initial register makes it affine; each round is injective in the register, so a
difference that one byte makes is not lost in the bytes after it. -/
theorem crcAffineAndBitSensitive : Obligations.CrcAffineAndBitSensitive := by
  refine ⟨crcShift_eq, fun x y h => crc16_xorBytes h, fun x i k hi heq => ?_, fun P x n c hc hn => ?_⟩
  · have hflip := crc16_of_length (x.set i (x.getD i 0x00 ^^^ BitVec.twoPow 8 k))
    rw [List.length_set, heq, crc16_of_length] at hflip
    exact crcRun_flip_ne 0xFFFF x i k hi ((BitVec.xor_left_inj _).1 hflip.symm)
  · subst hc
    rw [crc16_byteswap P true x hn, crc16_byteswap P false x hn]
    simp only [crcSwap_eq, if_true]
    rfl

end Sys2Proof.Machine
end

section
/-! SUPPORT. CRC16 (40_crc.md R106; 30_encoding.md R80): it completes in every state with the CRC of `length` bytes. -/

namespace Sys2Proof.Machine

/-- The bytes that CRC16 takes where the data channel lists fewer than `n` (R106, log entry 7). -/
def State.missingData (n : Nat) (s : State) : List Byte :=
  (List.range (n - s.reqData.length)).map (Config.freeData s.oracle.drawn)

theorem State.le_length_missingData (n : Nat) (s : State) : n ≤ (s.reqData ++ s.missingData n).length := by
  simp [State.missingData]
  omega

theorem State.missingData_eq_nil {n : Nat} {s : State} (h : n ≤ s.reqData.length) : s.missingData n = [] := by
  simp [State.missingData, Nat.sub_eq_zero_of_le h]

theorem dataBytes_eq_take (n : Nat) (s : State) : dataBytes n s = (s.reqData ++ s.missingData n).take n := by
  rw [List.take_append, List.take_of_length_le (l := s.missingData n) (by simp [State.missingData])]
  rfl

theorem crc16_take (data : List Byte) (n : Nat) : crc16 (data.take n) n = crc16 data n := by
  simp only [crc16, crcRegister_eq, List.take_take, Nat.min_self]

/-- Drawing for the missing bytes counts a draw, and none where no byte is missing. -/
theorem drewData_spec (n : Nat) (s : State) :
    ∃ drawn, (n ≤ s.reqData.length → drawn = s.oracle.drawn) ∧
      s.drewData n = { s with oracle := { s.oracle with drawn := drawn } } := by
  by_cases h : n ≤ s.reqData.length
  · exact ⟨_, fun _ => rfl, if_pos h⟩
  · exact ⟨_, fun h' => absurd h' h, if_neg h⟩

theorem crc16Op_spec (length : Word16) (s : State) :
    ∃ drawn, (length.toNat ≤ s.reqData.length → drawn = s.oracle.drawn) ∧
      crc16Op length s = .ok (some (crc16 (s.reqData ++ s.missingData length.toNat) length.toNat)) { s with
        crcReg := crcRun 0xFFFF ((s.reqData ++ s.missingData length.toNat).take length.toNat)
        written := { s.written with crcReg := true }, oracle := { s.oracle with drawn := drawn } } := by
  obtain ⟨drawn, hdrawn, hdrew⟩ := drewData_spec length.toNat s
  refine ⟨drawn, hdrawn, ?_⟩
  simp only [crc16Op, crcUnit, hdrew, dataBytes_eq_take, crc16_take, crcRegister_eq, List.take_take, Nat.min_self]
  rfl

/-- CRC16 completes in every state, with the CRC of the listed bytes and the missing ones (R106). -/
theorem exec_crc16 (length b : Word16) (s : State) :
    ∃ drawn, (length.toNat ≤ s.reqData.length → drawn = s.oracle.drawn) ∧
      exec (.crc16 length b) s = .next (({ s with
        crcReg := crcRun 0xFFFF ((s.reqData ++ s.missingData length.toNat).take length.toNat)
        result := crc16 (s.reqData ++ s.missingData length.toNat) length.toNat
        oracle := { s.oracle with drawn := drawn } } : State).ended 0x05 Status.success 0 0) := by
  obtain ⟨drawn, hdrawn, hop⟩ := crc16Op_spec length s.accepted
  refine ⟨drawn, hdrawn, ?_⟩
  show Host.Outcome.next (complete 0x05 (crc16Op length s.accepted)) = _
  rw [hop, complete_ok]
  rfl

/-- Settles O9: no byte is missing. -/
theorem crc16Completes : Obligations.Crc16Completes := by
  refine fun length b s => ⟨decodeHreq_encodeHreq 0x05 length b, fun h => ?_⟩
  obtain ⟨drawn, hdrawn, hexec⟩ := exec_crc16 length b s
  rw [hexec, hdrawn h, State.missingData_eq_nil h, List.append_nil]
  rfl

/-- Settles O8: the channel lists at least the 0 bytes asked for, and is emptied when the operation ends. -/
theorem zeroLengthCrcReadsNoData : Obligations.ZeroLengthCrcReadsNoData := by
  intro b s data
  obtain ⟨-, hexec⟩ := crc16Completes 0x0000 b { s with reqData := data }
  exact hexec (Nat.zero_le _)

/-- Settles O10: the further bytes are the missing ones. -/
theorem crc16RunsOnShortData : Obligations.Crc16RunsOnShortData := by
  intro length b s
  obtain ⟨drawn, -, hexec⟩ := exec_crc16 length b s
  exact ⟨s.missingData length.toNat, drawn, hexec, s.le_length_missingData _⟩

end Sys2Proof.Machine
end

section
/-! SUPPORT. The engine touches the link only while it is open, and opens it only while it is closed (41_link_and_codec.md R115). -/

namespace Sys2Proof.Machine

/-! ### Events -/

/-- An event that may happen while the link is open, and leaves it open (R115). -/
def Event.KeepsLinkOpen (e : Event) : Prop := e.linkAfter .opened = some .opened

theorem Event.Reading.keepsLinkOpen {e : Event} (h : e.Reading) : e.KeepsLinkOpen := by
  rcases h with ⟨r, rfl⟩ | ⟨r, rfl⟩ <;> rfl

theorem Event.Exchanging.keepsLinkOpen {frame : List Byte} {e : Event} (h : e.Exchanging frame) : e.KeepsLinkOpen := by
  rcases h with ⟨r, rfl⟩ | h
  · rfl
  · exact h.keepsLinkOpen

theorem Event.Syncing.keepsLinkOpen {frame : List Byte} {e : Event} (h : e.Syncing frame) : e.KeepsLinkOpen := by
  rcases h with h | rfl | ⟨r, rfl⟩
  · exact h.keepsLinkOpen
  · rfl
  · rfl

theorem foldlM_linkAfter_opened {es : List Event} (h : ∀ e ∈ es, e.KeepsLinkOpen) :
    es.foldlM Event.linkAfter .opened = some .opened := by
  induction es with
  | nil => rfl
  | cons e es ih =>
    have he : e.linkAfter .opened = some .opened := h e List.mem_cons_self
    rw [List.foldlM_cons, he]
    exact ih fun e' he' => h e' (List.mem_cons_of_mem e he')

/-- Closing a session that is open leaves a closed link, and so does having none to close (R131). -/
theorem foldlM_linkAfter_closing (s : State) : (closing s).foldlM Event.linkAfter s.link = some .closed := by
  unfold closing
  cases s.link <;> rfl

/-! ### Stretches of an operation -/

theorem State.LinkDisciplined.append {s t : State} {es : List Event} (h : s.LinkDisciplined) (ht : t.trace = s.trace ++ es)
    (hes : es.foldlM Event.linkAfter s.link = some t.link) : t.LinkDisciplined := by
  have hs : s.trace.foldlM Event.linkAfter .closed = some s.link := h
  show t.trace.foldlM Event.linkAfter .closed = some t.link
  rw [ht, List.foldlM_append, hs]
  exact hes

/-- The discipline speaks of the link and the trace alone. -/
theorem State.LinkDisciplined.of_eq {s t : State} (h : s.LinkDisciplined) (hl : t.link = s.link) (ht : t.trace = s.trace) :
    t.LinkDisciplined :=
  h.append (es := []) (by rw [ht, List.append_nil]) (by rw [hl]; rfl)

/-- A stretch of an operation on an open link keeps the discipline. -/
theorem Ran.linkDisciplined {P : Event → Prop} {pkt frame : List Byte} {s t : State} (ht : Ran P pkt frame s t)
    (hP : ∀ e, P e → e.KeepsLinkOpen) (hs : s.link = .opened) (h : s.LinkDisciplined) : t.LinkDisciplined := by
  obtain ⟨hl, -⟩ := ht.keeps
  obtain ⟨es, htr, hes, -⟩ := ht.trace
  refine h.append htr ?_
  rw [hl, hs]
  exact foldlM_linkAfter_opened fun e he => hP e (hes e he)

theorem Received.linkDisciplined {s u : State} (hu : Received s u) (hs : s.link = .opened) (h : s.LinkDisciplined) :
    u.LinkDisciplined :=
  hu.ran.linkDisciplined (fun _ he => he.keepsLinkOpen) hs h

/-- Closing the session, if one is open, keeps the discipline (R131, R201). -/
theorem State.LinkDisciplined.closed {s : State} (h : s.LinkDisciplined) :
    ({ s with link := .closed, trace := s.trace ++ closing s } : State).LinkDisciplined :=
  h.append rfl (foldlM_linkAfter_closing s)

/-- OPEN_AND_SYNC closes an open session before it opens the link; a failed open is its last event (R131). -/
theorem Opened.linkDisciplined {C : Codec} {s t : State} (ht : Opened C s t) (h : s.LinkDisciplined) : t.LinkDisciplined := by
  obtain ⟨l, g, y, n, k, c, pkt, frame, x, p, w, o, pt, es, -, -, hes, rfl⟩ := ht
  refine h.closed.append rfl ?_
  rcases hes with ⟨r, rfl, rfl⟩ | ⟨r, rest, rfl, rfl, hrest⟩
  · rfl
  · exact foldlM_linkAfter_opened (List.forall_mem_cons.2 ⟨rfl, fun e he => (hrest e he).keepsLinkOpen⟩)

/-! ### Completion -/

@[simp] theorem raiseEffect_link (op : Byte) (e : Raise) (s : State) : (raiseEffect op e s).link = s.link := by
  rcases raiseEffect_spec op e s with ⟨h, -⟩ | ⟨h, -⟩
  · rw [h, State.desync_link]
  · rw [h]

/-- `DONE` happens at any time and leaves the link as it is; what an operation writes before it beside the link is free (R205). -/
theorem State.LinkDisciplined.ended {s u : State} {op : Byte} {st : Status} {a b : Word16} (h : s.LinkDisciplined)
    (hl : u.link = s.link) (ht : u.trace = s.trace) : (u.ended op st a b).LinkDisciplined :=
  (h.of_eq hl ht).append rfl rfl

theorem State.LinkDisciplined.raised {s : State} (h : s.LinkDisciplined) (op : Byte) (e : Raise) :
    ((raiseEffect op e s).ended op (Status.ofError e.code) e.a e.b).LinkDisciplined :=
  h.ended (raiseEffect_link op e s) (raiseEffect_trace op e s)

theorem complete_linkDisciplined {r : OpRes} (op : Byte) (h : r.state.LinkDisciplined) : (complete op r).LinkDisciplined := by
  cases r with
  | ok v s =>
    rw [complete_ok]
    exact h.ended rfl rfl
  | raise e s =>
    rw [complete_raise]
    exact h.raised op e
  | running s => exact h

/-! ### Requests and steps -/

/-- A mode command or a reading runs in a synchronized session only, whose link is open (R38); OPEN_AND_SYNC and CLOSE see to the link
themselves. -/
theorem RequestOutcome.linkDisciplined {s t : State} {op : Byte} (ht : RequestOutcome s op t) (hb : s.BetweenOps)
    (h : s.LinkDisciplined) : t.LinkDisciplined := by
  have hs : s.accepted.LinkDisciplined := h
  have hopen (hy : s.sync = .synced) : s.accepted.link = .opened := (hb.synced hy).left
  cases ht with
  | draining u hu hd => exact hu.linkDisciplined hs
  | synced u hu hl hr hy => exact (hu.linkDisciplined hs).ended rfl rfl
  | rawMode u p f hy hu => exact (hu.linkDisciplined (fun _ he => he.keepsLinkOpen) (hopen hy) hs).ended rfl rfl
  | triggerMode u p f low high hy hl hu => exact (hu.linkDisciplined (fun _ he => he.keepsLinkOpen) (hopen hy) hs).ended rfl rfl
  | reading u value hy hm hu => exact (hu.linkDisciplined (fun _ he => he.keepsLinkOpen) (hopen hy) hs).ended rfl rfl
  | crc reg c drawn => exact h.ended rfl rfl
  | debug flag => exact h.ended rfl rfl
  | closed => exact h.closed.ended rfl rfl
  | usage op c a b hc hu => exact h.ended rfl rfl
  | openFailed e u hc hu => exact (hu.linkDisciplined hs).ended rfl rfl
  | modeFailed op opc low high e u p f ho hy hc hcls hu =>
    exact (hu.linkDisciplined (fun _ he => he.keepsLinkOpen) (hopen hy) hs).raised op e
  | readFailed e u hy hm hc hcls hu =>
    exact (hu.linkDisciplined (fun _ he => he.keepsLinkOpen) (hopen hy) hs).raised 0x04 e

/-- The rest of a bring-up runs on the link that its start opened (R136 to R140). -/
theorem drainAndEcho_linkDisciplined {s : State} (C : Codec) (hs : s.link = .opened) (h : s.LinkDisciplined) :
    (drainAndEcho C s).state.LinkDisciplined := by
  rcases drainAndEcho_spec C s with ⟨o, es, hes, hd⟩ | ⟨frame, t, -, ht, hd⟩
  · rw [hd]
    refine h.append (es := es) rfl ?_
    show es.foldlM Event.linkAfter s.link = some s.link
    rw [hs]
    exact foldlM_linkAfter_opened fun e he => Event.Reading.keepsLinkOpen (.inr (hes e he))
  · have hran : t.LinkDisciplined := ht.linkDisciplined (fun _ he => he.keepsLinkOpen) hs h
    rcases hd with hd | ⟨e, -, hd | hd⟩ <;> rw [hd] <;> exact hran.of_eq rfl rfl

theorem judge_linkDisciplined (x : Exchange) (kind : Byte) (value : Word16) {s : State} (h : s.LinkDisciplined) :
    (judge x kind value s).state.LinkDisciplined := by
  rcases judge_spec x kind value s with ⟨e, hj, -⟩ | ⟨-, hj⟩ | ⟨-, hj⟩ | ⟨-, hj⟩ | ⟨-, hj⟩ <;> rw [hj] <;> exact h.of_eq rfl rfl

/-- A step with no reset in it keeps the discipline. -/
theorem RunOutcome.linkDisciplined {s t : State} (ht : RunOutcome s t) (hinv : s.Inv) (h : s.LinkDisciplined) :
    t.LinkDisciplined := by
  cases ht with
  | waiting hp hq => exact h
  | accepted hp hb r rest op t hq ht =>
    exact ht.linkDisciplined ((hinv.betweenOps_of_idle hp).of_session_eq rfl rfl rfl rfl) (h.of_eq rfl rfl)
  | built command hp opc low high => exact h.of_eq rfl rfl
  | drained hp hw =>
    obtain ⟨hlink, -⟩ := hinv.link_txPkt_of_draining hp
    exact complete_linkDisciplined 0x01 (drainAndEcho_linkDisciplined Config.codec hlink h)
  | judged x hp u hu kind value =>
    obtain ⟨hlink, -⟩ := hinv.session_of_awaiting hp
    exact complete_linkDisciplined x.op (judge_linkDisciplined x kind value (hu.linkDisciplined hlink h))
  | refused x hp u hu e he =>
    obtain ⟨hlink, -⟩ := hinv.session_of_awaiting hp
    exact complete_linkDisciplined (r := .raise e u) x.op (hu.linkDisciplined hlink h)

/-- A reset leaves a closed link and an empty trace (R41). -/
theorem State.reset_linkDisciplined (q : List Request) (o : Oracle) (n : List Nat) :
    ({ State.reset with requests := q, oracle := o, resets := n } : State).LinkDisciplined := rfl

/-- Cutting a step off leaves a reset state, or the step's own link and trace (R240). -/
theorem cutAt_linkDisciplined (k : Nat) (s : State) {u : State} (h : u.LinkDisciplined) : (s.cutAt k u).LinkDisciplined := by
  rcases cutAt_spec k s u with ⟨o, hc⟩ | ⟨n, hc⟩ <;> rw [hc]
  · exact State.reset_linkDisciplined u.requests o u.resets.tail
  · exact h.of_eq rfl rfl

/-- Settles O53: the invariant gives an open link wherever a stretch of an operation touches it without having opened it first, and a reset
empties the trace with the link. -/
theorem stepKeepsLinkDiscipline : Obligations.StepKeepsLinkDiscipline := by
  intro s t hinv h hstep
  rcases step_cases s t hstep with ⟨-, ht⟩ | ⟨rest, -, rfl⟩ | ⟨k, rest, u, -, hu, rfl⟩
  · exact ht.linkDisciplined hinv h
  · exact State.reset_linkDisciplined s.requests s.oracle s.resets.tail
  · exact cutAt_linkDisciplined k s (hu.linkDisciplined hinv h)

/-! ### The codec port -/

/-- Settles O59: the codec port is a lawful codec, and 5 and 7 are the lengths of the packets its laws are about. -/
theorem codecPortObeysContract : Obligations.CodecPortObeysContract := by
  intro p hp
  have hpacket : IsPacket p := hp.symm
  exact ⟨Config.lawfulCodec.enc_length p hpacket, Config.lawfulCodec.enc_last p hpacket, Config.lawfulCodec.enc_inner p hpacket,
    Config.lawfulCodec.dec_enc p hpacket⟩

end Sys2Proof.Machine
end

section
/-! SUPPORT. Resync and the probe against known answers of the link (42_sync.md R133, R134, R142, R143): loops of attempts that fail alike,
and the attempt that ends them. -/

namespace Sys2Proof.Machine

/-! ### Known answers -/

theorem linkRead_known {n : Nat} {s : State} {r : ReadResult} {rest : List ReadResult} (h : s.oracle.reads = r :: rest) :
    linkRead n s = (r.within n, { s with
      oracle := { s.oracle with reads := rest }, trace := s.trace ++ [.rx n (r.within n)] }) := by
  simp only [linkRead, Oracle.takeRead, h, State.record]

theorem Oracle.takeRead_known {o : Oracle} {r : ReadResult} {rest : List ReadResult} (n : Nat) (h : o.reads = r :: rest) :
    o.takeRead n = (r.within n, { o with reads := rest }) := by
  simp only [Oracle.takeRead, h]

theorem Oracle.takeWrite_known {o : Oracle} {r : WriteResult} {rest : List WriteResult} (n : Nat) (h : o.writes = r :: rest) :
    o.takeWrite n = (r.within n, { o with writes := rest }) := by
  simp only [Oracle.takeWrite, h]

theorem Oracle.takeConfigure_known {o : Oracle} {r : ConfigResult} {rest : List ConfigResult} (h : o.configures = r :: rest) :
    o.takeConfigure = (r, { o with configures := rest }) := by
  simp only [Oracle.takeConfigure, h]

theorem Oracle.takeOpen_known {o : Oracle} {r : OpenResult} {rest : List OpenResult} (h : o.opens = r :: rest) :
    o.takeOpen = (r, { o with opens := rest }) := by
  simp only [Oracle.takeOpen, h]

@[simp] theorem readEvents_nil : readEvents [] = [] := rfl

@[simp] theorem readEvents_cons (r : ReadResult) (rs : List ReadResult) : readEvents (r :: rs) = .rx 1 (r.within 1) :: readEvents rs := rfl

@[simp] theorem readEvents_append (rs rs' : List ReadResult) : readEvents (rs ++ rs') = readEvents rs ++ readEvents rs' := List.map_append

/-! ### Resync -/

/-- Attempts that miss use up the budget, one each, and are counted and recorded (R142, R143). -/
theorem resyncLoop_misses {rs rest : List ReadResult} (hrs : ∀ r ∈ rs, r.Misses) (n : Nat) {s : State} (hs : s.oracle.reads = rs ++ rest) :
    resyncLoop (rs.length + n) s = resyncLoop n { s with
      resyncCount := s.resyncCount + rs.length, oracle := { s.oracle with reads := rest }, trace := s.trace ++ readEvents rs } := by
  induction rs generalizing s with
  | nil =>
    obtain rfl : s.oracle.reads = rest := hs
    simp
  | cons r rs ih =>
    obtain ⟨bytes, hr, hne⟩ := hrs r List.mem_cons_self
    have hstep : resyncLoop ((rs.length + n) + 1) s = resyncLoop (rs.length + n) { s with
        resyncCount := s.resyncCount + 1, oracle := { s.oracle with reads := rs ++ rest }
        trace := s.trace ++ [.rx 1 (.ok bytes)] } := by
      simp only [resyncLoop, linkRead_known (rest := rs ++ rest) hs, hr, if_neg hne]
    rw [List.length_cons, Nat.add_right_comm, hstep, ih (fun r hr => hrs r (List.mem_cons_of_mem _ hr)) rfl]
    simp only [readEvents_cons, hr, List.append_assoc, List.singleton_append, Nat.add_assoc, Nat.add_comm 1]

/-- Resync after its first misses, with `n` attempts of its budget left. -/
theorem resync_misses {rs rest : List ReadResult} (hrs : ∀ r ∈ rs, r.Misses) {n : Nat} (hn : rs.length + n = 100) {s : State}
    (hs : s.oracle.reads = rs ++ rest) :
    resync s = resyncLoop n { s with
      resyncCount := rs.length, oracle := { s.oracle with reads := rest }, trace := s.trace ++ readEvents rs } := by
  show resyncLoop 100 { s with resyncCount := 0 } = _
  rw [← hn, resyncLoop_misses (s := { s with resyncCount := 0 }) hrs n hs, Nat.zero_add]

/-- Settles O27: the misses use up their attempts (`resync_misses`), and the next read, if an attempt is left for it, ends the scan. -/
theorem resyncCountsReadAttempts : Obligations.ResyncCountsReadAttempts := by
  intro s rs rest hrs
  have hleft (h : rs.length < 100) : ∃ n, rs.length + (n + 1) = 100 := ⟨99 - rs.length, by omega⟩
  refine ⟨fun hn hs => ?_, fun bytes hlt hs => ?_, fun hlt hs => ?_⟩
  · rw [resync_misses hrs (n := 0) hn hs, hn]
    rfl
  · obtain ⟨n, hn⟩ := hleft hlt
    rw [resync_misses hrs hn hs]
    rfl
  · obtain ⟨n, hn⟩ := hleft hlt
    rw [resync_misses hrs hn hs]
    rfl

/-! ### Sending -/

/-- A send of a nine-byte frame, by the known answer of its one write (R160, R161). -/
theorem sendCommand_known {C : Codec} {pkt : List Byte} (hlen : (C.enc pkt).length = 9) {s : State} {r : WriteResult} {rest : List WriteResult}
    {sent : WriteResult → State} (hs : s.oracle.writes = r :: rest)
    (hsent : ∀ r, sent r = { s with
      txFrame := C.enc pkt, written := { s.written with txFrame := true }, oracle := { s.oracle with writes := rest }
      trace := s.trace ++ [.tx (C.enc pkt) r] }) :
    (r = .err → sendCommand C pkt s = .raise { code := .writeIo, a := 0, b := 9 } (sent .err)) ∧
      (r = .ok 9 → sendCommand C pkt s = .ok () (sent (.ok 9))) ∧
      (∀ n, n < 9 → r = .ok n →
        sendCommand C pkt s = .raise { code := .writeCount, a := BitVec.ofNat 16 n, b := 9 } (sent (.ok n))) := by
  have htake : s.oracle.takeWrite (C.enc pkt).length = (r.within 9, { s.oracle with writes := rest }) := by
    rw [hlen, Oracle.takeWrite_known 9 hs]
  obtain ⟨herr, hok, hcount⟩ := sendCommand_eq C pkt s _ _ _ htake (hsent _)
  refine ⟨?_, ?_, fun n hn => ?_⟩ <;> rintro rfl
  · exact herr rfl
  · exact hok rfl
  · have hmin : min n 9 = n := by omega
    have hsat : sat16 n = BitVec.ofNat 16 n := by rw [sat16, Nat.min_eq_left (by omega)]
    rw [← hsat]
    simpa only [WriteResult.within, hmin] using hcount n (by omega) (congrArg WriteResult.ok hmin)

/-! ### The probe -/

theorem probeEvents_succ (frame : List Byte) (k : Nat) :
    probeEvents frame (k + 1) = probeEvents frame k ++ [.tx frame (.ok 9), .rx 1 (.ok [])] := by
  simp only [probeEvents, List.replicate_succ', List.flatten_append, List.flatten_singleton]

theorem probeEvents_length (frame : List Byte) (k : Nat) : (probeEvents frame k).length = 2 * k := by
  simp [probeEvents, Nat.mul_comm]

/-- The probe's state after `k` attempts that nothing answered, the oracle left at `o` (R133, R134). -/
def State.probing (C : Codec) (pkt : List Byte) (k : Nat) (o : Oracle) (s : State) : State :=
  { s with
    syncCount := k, txFrame := C.enc pkt, written := { s.written with txFrame := true }, oracle := o
    trace := s.trace ++ probeEvents (C.enc pkt) k }

/-- The probe's first send writes the frame, whatever stood there before. -/
theorem probe_eq (C : Codec) (pkt : List Byte) (s : State) : probe C pkt s = probeLoop C pkt 100 (s.probing C pkt 0 s.oracle) := by
  have htrace : s.trace ++ probeEvents (C.enc pkt) 0 = s.trace := List.append_nil _
  simp only [State.probing, htrace]
  rfl

/-- A probe whose send raises ends there, the attempt uncounted (R133). -/
theorem probeLoop_of_raise {C : Codec} {pkt : List Byte} {s t : State} {e : Raise} (n : Nat) (h : sendCommand C pkt s = .raise e t) :
    probeLoop C pkt (n + 1) s = .raise e t := by
  simp only [probeLoop, h, Res.bind]

section
variable {C : Codec} {pkt : List Byte} (hlen : (C.enc pkt).length = 9)
include hlen

/-- An attempt of the probe whose write is whole, by its read (R133, R135). -/
theorem probeLoop_attempt {s t : State} {r : ReadResult} {writes : List WriteResult} {reads : List ReadResult} (n : Nat)
    (hw : s.oracle.writes = .ok 9 :: writes) (hr : s.oracle.reads = r :: reads)
    (ht : t = { s with
      syncCount := s.syncCount + 1, txFrame := C.enc pkt, written := { s.written with txFrame := true }
      oracle := { s.oracle with writes := writes, reads := reads }
      trace := s.trace ++ [.tx (C.enc pkt) (.ok 9), .rx 1 (r.within 1)] }) :
    (r = .err → probeLoop C pkt (n + 1) s = .raise { code := .readIo, a := 0, b := 1 } t) ∧
      (r = .ok [] → probeLoop C pkt (n + 1) s = probeLoop C pkt n t) ∧
      (∀ byte bytes, r = .ok (byte :: bytes) → probeLoop C pkt (n + 1) s = .ok () t) := by
  obtain ⟨-, hsend, -⟩ := sendCommand_known hlen hw (fun _ => rfl)
  have hread : linkRead 1 { s with
      syncCount := s.syncCount + 1, txFrame := C.enc pkt, written := { s.written with txFrame := true }
      oracle := { s.oracle with writes := writes }, trace := s.trace ++ [.tx (C.enc pkt) (.ok 9)] } = (r.within 1, t) := by
    simp only [linkRead, Oracle.takeRead, hr, State.record, ht, List.append_assoc, List.singleton_append]
  refine ⟨?_, ?_, fun byte bytes => ?_⟩ <;> rintro rfl <;> simp only [probeLoop, hsend rfl, Res.bind, hread] <;> rfl

/-- Attempts that nothing answers use up the budget, one each, and are counted and recorded (R134). -/
theorem probeLoop_silent {writes : List WriteResult} {reads : List ReadResult} (n k : Nat) (j : Nat) {o : Oracle} (s : State)
    (hw : o.writes = List.replicate k (.ok 9) ++ writes) (hr : o.reads = List.replicate k (.ok []) ++ reads) :
    probeLoop C pkt (k + n) (s.probing C pkt j o) =
      probeLoop C pkt n (s.probing C pkt (j + k) { o with writes := writes, reads := reads }) := by
  induction k generalizing j o with
  | zero =>
    obtain rfl : o.writes = writes := hw
    obtain rfl : o.reads = reads := hr
    rw [Nat.zero_add, Nat.add_zero]
  | succ k ih =>
    obtain ⟨-, hsilent, -⟩ := probeLoop_attempt hlen (s := s.probing C pkt j o) (k + n) hw hr
      (t := s.probing C pkt (j + 1) { o with
        writes := List.replicate k (.ok 9) ++ writes, reads := List.replicate k (.ok []) ++ reads })
      (by simp [State.probing, probeEvents_succ, ReadResult.within])
    rw [Nat.add_right_comm, hsilent rfl, ih (j + 1) rfl rfl, Nat.add_assoc, Nat.add_comm 1]

/-- The probe after its first `k` attempts that nothing answered, with `n` attempts of its budget left. -/
theorem probe_silent {writes : List WriteResult} {reads : List ReadResult} {n k : Nat} (hn : k + n = 100) {s : State}
    (hw : s.oracle.writes = List.replicate k (.ok 9) ++ writes) (hr : s.oracle.reads = List.replicate k (.ok []) ++ reads) :
    probe C pkt s = probeLoop C pkt n (s.probing C pkt k { s.oracle with writes := writes, reads := reads }) := by
  rw [probe_eq, ← hn, probeLoop_silent hlen n k 0 s hw hr, Nat.zero_add]

/-- The probe where nothing answers any attempt of its budget (R134). -/
theorem probe_exhausted {writes : List WriteResult} {reads : List ReadResult} {s : State}
    (hw : s.oracle.writes = List.replicate 100 (.ok 9) ++ writes) (hr : s.oracle.reads = List.replicate 100 (.ok []) ++ reads) :
    probe C pkt s = .raise { code := .syncExhausted, a := 100, b := 0 }
      (s.probing C pkt 100 { s.oracle with writes := writes, reads := reads }) := by
  rw [probe_silent hlen (n := 0) rfl hw hr]
  rfl

/-- The probe at an attempt within its budget whose write is whole and whose read fails or returns a byte (R133, R135). -/
theorem probe_read {k : Nat} (hk : k < 100) {s t : State} {r : ReadResult} {writes : List WriteResult} {reads : List ReadResult}
    (hw : s.oracle.writes = List.replicate (k + 1) (.ok 9) ++ writes) (hr : s.oracle.reads = List.replicate k (.ok []) ++ r :: reads)
    (ht : t = { s with
      syncCount := k + 1, txFrame := C.enc pkt, written := { s.written with txFrame := true }
      oracle := { s.oracle with writes := writes, reads := reads }
      trace := s.trace ++ probeEvents (C.enc pkt) k ++ [.tx (C.enc pkt) (.ok 9), .rx 1 (r.within 1)] }) :
    (r = .err → probe C pkt s = .raise { code := .readIo, a := 0, b := 1 } t) ∧
      (∀ byte bytes, r = .ok (byte :: bytes) → probe C pkt s = .ok () t) := by
  have hw' : s.oracle.writes = List.replicate k (.ok 9) ++ .ok 9 :: writes := by
    rw [hw, List.replicate_succ', List.append_assoc, List.singleton_append]
  rw [probe_silent hlen (n := 99 - k + 1) (by omega) hw' hr]
  obtain ⟨herr, -, hok⟩ := probeLoop_attempt hlen (99 - k) (s := s.probing C pkt k { s.oracle with
    writes := .ok 9 :: writes, reads := r :: reads }) rfl rfl ht
  exact ⟨herr, hok⟩

/-- The probe at an attempt within its budget whose write fails or falls short (R133, R161). -/
theorem probe_write {k : Nat} (hk : k < 100) {s : State} {r : WriteResult} {writes : List WriteResult} {reads : List ReadResult}
    {stopped : WriteResult → State} (hw : s.oracle.writes = List.replicate k (.ok 9) ++ r :: writes)
    (hr : s.oracle.reads = List.replicate k (.ok []) ++ reads)
    (hstopped : ∀ r, stopped r = { s with
      syncCount := k, txFrame := C.enc pkt, written := { s.written with txFrame := true }
      oracle := { s.oracle with writes := writes, reads := reads }
      trace := s.trace ++ probeEvents (C.enc pkt) k ++ [.tx (C.enc pkt) r] }) :
    (r = .err → probe C pkt s = .raise { code := .writeIo, a := 0, b := 9 } (stopped .err)) ∧
      (∀ n, n < 9 → r = .ok n →
        probe C pkt s = .raise { code := .writeCount, a := BitVec.ofNat 16 n, b := 9 } (stopped (.ok n))) := by
  rw [probe_silent hlen (n := 99 - k + 1) (by omega) hw hr]
  obtain ⟨herr, -, hcount⟩ := sendCommand_known hlen (s := s.probing C pkt k { s.oracle with
    writes := r :: writes, reads := reads }) rfl hstopped
  exact ⟨fun h => probeLoop_of_raise _ (herr h), fun n hn h => probeLoop_of_raise _ (hcount n hn h)⟩

end

/-- The codec port's frame of a seven-byte packet (R110). -/
theorem encoded_length_of_seven {pkt : List Byte} (h : pkt.length = 7) : (Config.codec.enc pkt).length = 9 := by
  rw [show (Config.codec.enc pkt).length = pkt.length + 2 from Config.lawfulCodec.enc_length pkt (.inl h), h]

/-- Settles O30: the silent attempts use up the budget, or one within it is ended by its write or its read. -/
theorem probeCountsAttempts : Obligations.ProbeCountsAttempts := by
  intro pkt s n writes rest hpkt hw
  have hlen := encoded_length_of_seven hpkt
  refine ⟨?_, ?_, ?_, ?_⟩
  · rintro rfl hr
    exact ⟨probe_exhausted hlen hw hr, probeEvents_length _ 100⟩
  · rintro k byte bytes rfl hk hr
    obtain ⟨-, hok⟩ := probe_read hlen hk hw hr rfl
    exact hok byte bytes rfl
  · rintro k rfl hk hr
    obtain ⟨herr, -⟩ := probe_read hlen hk hw hr rfl
    exact herr rfl
  · intro others t hn hr ht
    refine ⟨?_, fun count hcount => ?_⟩ <;> rintro rfl
    · obtain ⟨herr, -⟩ := probe_write hlen hn hw hr ht
      exact herr rfl
    · obtain ⟨-, hshort⟩ := probe_write hlen hn hw hr ht
      exact hshort count hcount rfl

end Sys2Proof.Machine
end

section
/-! SUPPORT. OPEN_AND_SYNC from the drain on (42_sync.md R136 to R141): the drain against known answers, the settle and the blocking
configure, and the echo, each with the state in which it ends the operation. -/

namespace Sys2Proof.Machine

/-! ### The drain -/

/-- The state after drain reads with these answers, `reads` still to come (R136). -/
def State.drained (taken reads : List ReadResult) (s : State) : State :=
  { s with oracle := { s.oracle with reads := reads }, trace := s.trace ++ readEvents taken }

/-- The drain goes on while its reads return bytes (R136, R137). -/
theorem drainLoop_speaks {garbage reads : List ReadResult} (hg : ∀ r ∈ garbage, r.Speaks) (n : Nat) {s : State}
    (hs : s.oracle.reads = garbage ++ reads) : drainLoop (garbage.length + n) s = drainLoop n (s.drained garbage reads) := by
  induction garbage generalizing s with
  | nil =>
    obtain rfl : s.oracle.reads = reads := hs
    simp [State.drained]
  | cons r garbage ih =>
    obtain ⟨b, bytes, rfl⟩ := hg r List.mem_cons_self
    have hstep : drainLoop ((garbage.length + n) + 1) s =
        drainLoop (garbage.length + n) (s.drained [.ok (b :: bytes)] (garbage ++ reads)) := by
      simp only [drainLoop, linkRead_known (rest := garbage ++ reads) hs]
      rfl
    rw [List.length_cons, Nat.add_right_comm, hstep, ih (fun r hr => hg r (List.mem_cons_of_mem _ hr)) rfl]
    simp [State.drained]

/-- The drain where a read fails or returns no byte, after any number that return bytes (R136). -/
theorem drain_ends {garbage reads : List ReadResult} (hg : ∀ r ∈ garbage, r.Speaks) {s : State} {r : ReadResult}
    (hs : s.oracle.reads = garbage ++ r :: reads) :
    (r = .err → drain s = .raise { code := .readIo, a := 0, b := 1 } (s.drained (garbage ++ [r]) reads)) ∧
      (r = .ok [] → drain s = .ok () (s.drained (garbage ++ [r]) reads)) := by
  have hlen : max 1 s.oracle.reads.length = garbage.length + (reads.length + 1) := by
    rw [hs, List.length_append, List.length_cons]
    omega
  have hlast : s.drained (garbage ++ [r]) reads = (s.drained garbage (r :: reads)).drained [r] reads := by
    simp [State.drained]
  rw [drain, hlen, drainLoop_speaks hg _ hs, hlast]
  refine ⟨?_, ?_⟩ <;> rintro rfl <;> rfl

/-- The drain has not ended where every known read returns a byte (R137). -/
theorem drain_running {garbage : List ReadResult} (hg : ∀ r ∈ garbage, r.Speaks) (hne : garbage ≠ []) {s : State}
    (hs : s.oracle.reads = garbage) : drain s = .running (s.drained garbage []) := by
  have hlen : max 1 s.oracle.reads.length = garbage.length + 0 := by
    rw [hs]
    have := List.length_pos_iff.2 hne
    omega
  rw [drain, hlen, drainLoop_speaks hg 0 (reads := []) (by rw [hs, List.append_nil])]
  rfl

/-! ### An error of bring-up -/

/-- An error of bring-up desynchronizes and ends it (R141). -/
theorem complete_bringUp_raise {e : Raise} (s : State) (h : e.code ∈ codesOf 0x01) :
    complete 0x01 (.raise e s) = s.desync.ended 0x01 { cls := e.code.cls, code := e.code.num } e.a e.b := by
  rw [complete_raise, raiseEffect_bringUp e s h]
  rfl

/-! ### The echo -/

/-- The state in which the echo's write has ended with this answer, `writes` still to come (R140, R160). -/
def State.echoSent (r : WriteResult) (writes : List WriteResult) (s : State) : State :=
  { s.sending 0x30 0 0 with
    written := { s.written with txFrame := true }, oracle := { s.oracle with writes := writes }
    trace := s.trace ++ [.tx (Config.codec.enc (cmdPacket 0x30 0 0)) r] }

section
variable {s : State} (hpkt : s.txPkt = cmdPacket 0x30 0 0)
include hpkt

/-- Where the SYNC packet is built already, sending it changes the packet no more. -/
theorem State.echoSent_eq (r : WriteResult) (writes : List WriteResult) : s.echoSent r writes = { s with
    txFrame := Config.codec.enc s.txPkt, written := { s.written with txFrame := true }, oracle := { s.oracle with writes := writes }
    trace := s.trace ++ [.tx (Config.codec.enc s.txPkt) r] } := by
  simp only [State.echoSent, State.sending, ← hpkt]

/-- The echo's exchange, where its write fails or falls short (R140, R161). -/
theorem complete_echo_unsent {r : WriteResult} {writes : List WriteResult} (hw : s.oracle.writes = r :: writes) :
    (r = .err → complete 0x01 (exchange Config.codec .echo s) =
      (s.echoSent .err writes).desync.ended 0x01 { cls := .linkFatal, code := 0x06 } 0 9) ∧
    (∀ n, n < 9 → r = .ok n → complete 0x01 (exchange Config.codec .echo s) =
      (s.echoSent (.ok n) writes).desync.ended 0x01 { cls := .linkFatal, code := 0x04 } (BitVec.ofNat 16 n) 9) := by
  have hlen : (Config.codec.enc s.txPkt).length = 9 := by rw [hpkt, encoded_length]
  obtain ⟨herr, -, hshort⟩ := sendCommand_known hlen hw fun r => s.echoSent_eq hpkt r writes
  refine ⟨fun h => ?_, fun n hn h => ?_⟩
  · simp only [exchange, herr h, Res.bind]
    exact complete_bringUp_raise _ (by decide)
  · simp only [exchange, hshort n hn h, Res.bind]
    exact complete_bringUp_raise _ (by decide : ErrorCode.writeCount ∈ codesOf 0x01)

/-- The echo's exchange, where its write is whole: it ends by an error of ReceivePacket, by another kind, or synchronized (R140, R141). -/
theorem complete_echo_sent {t : State} {writes : List WriteResult} (hw : s.oracle.writes = .ok 9 :: writes)
    (ht : t = { s.echoSent (.ok 9) writes with point := .awaiting .echo }) :
    (∀ e u, receivePacket Config.codec 5 t = .raise e u →
      complete 0x01 (exchange Config.codec .echo s) = u.desync.ended 0x01 { cls := e.code.cls, code := e.code.num } e.a e.b) ∧
    (∀ kind value u, receivePacket Config.codec 5 t = .ok (rspPacket kind value) u →
      (kind = 0x01 → complete 0x01 (exchange Config.codec .echo s) =
        ({ u with sync := .synced } : State).ended 0x01 { cls := .none, code := 0x00 } 0 0) ∧
      (kind ≠ 0x01 → complete 0x01 (exchange Config.codec .echo s) =
        u.desync.ended 0x01 { cls := .protocolFatal, code := 0x11 } (kind.setWidth 16) 0)) := by
  have htake : s.oracle.takeWrite (Config.codec.enc s.txPkt).length = (.ok 9, { s.oracle with writes := writes }) := by
    rw [hpkt, encoded_length, Oracle.takeWrite_known 9 hw]
    rfl
  have hexchange : exchange Config.codec .echo s = awaitResponse Config.codec .echo t := by
    rw [exchange_of_sent htake, ht, s.echoSent_eq hpkt]
  obtain ⟨hraise, hok⟩ := awaitResponse_eq Config.codec (s := t) (x := .echo) (by rw [ht])
  refine ⟨fun e u h => ?_, fun kind value u h => ⟨?_, fun hk => ?_⟩⟩
  · rw [hexchange, hraise e u h, complete_bringUp_raise u (receiveCodes_subset (receivePacket_raise_code h))]
  · rintro rfl
    rw [hexchange, hok _ value u h]
    rfl
  · rw [hexchange, hok kind value u h, judge_of_ne_wanted hk, complete_bringUp_raise u (by decide : ErrorCode.notInSync ∈ codesOf 0x01)]
    rfl

end

/-- What ReceivePacket keeps where it raises (R162). -/
theorem received_of_raise {C : Codec} {s u : State} {e : Raise} (h : receivePacket C 5 s = .raise e u) : Received s u := by
  obtain ⟨v, hv, ⟨p, -, h'⟩ | ⟨e', -, h'⟩⟩ := receivePacket_spec C s <;> rw [h] at h' <;> cases h'
  exact hv

/-- ReceivePacket where its known read is a frame that passes every check (R162). -/
theorem receivePacket_known {s : State} {f : List Byte} {kind : Byte} {value : Word16} {rest : List ReadResult}
    (hs : s.oracle.reads = .ok f :: rest) (hf : FrameOf f kind value) :
    receivePacket Config.codec 5 s = .ok (rspPacket kind value) { s.holding f kind value with
      oracle := { s.oracle with reads := rest }, trace := s.trace ++ [.rx 7 (.ok f)]
      written := { s.written with rxFrame := true, rxPkt := true, crcReg := true } } := by
  obtain ⟨hlen, hlast, hdec⟩ := hf
  have htake : s.oracle.takeRead 7 = (.ok f, { s.oracle with reads := rest }) := by
    rw [Oracle.takeRead_known 7 hs, ReadResult.within, List.take_of_length_le hlen.le]
  exact receivePacket_frame Config.codec s f kind value _ htake hlen hlast hdec

/-! ### The blocking configure -/

/-- The state at the echo: the drain over, the settle done and the blocking regime configured (R138, R139). -/
def State.atEcho (garbage reads : List ReadResult) (configures : List ConfigResult) (s : State) : State :=
  { s with
    regime := .blocking, sync := .awaitingEcho, oracle := { s.oracle with reads := reads, configures := configures }
    trace := s.trace ++ readEvents garbage ++ [.rx 1 (.ok []), .sleep 20, .config 7 10 .ok] }

/-- Steps 4 to 6, by the answer of the blocking configure (R138 to R140). -/
theorem echo_eq (C : Codec) {s : State} {r : ConfigResult} {o : Oracle} (h : s.oracle.takeConfigure = (r, o)) :
    (r = .err → echo C s = .raise { code := .linkAttr, a := 0, b := 0 } { s with
      oracle := o, trace := s.trace ++ [.sleep 20, .config 7 10 .err] }) ∧
    (r = .ok → echo C s = exchange C .echo { s with
      regime := .blocking, sync := .awaitingEcho, oracle := o, trace := s.trace ++ [.sleep 20, .config 7 10 .ok] }) := by
  have hconfigure : linkConfigure 7 10 (linkSleep 20 s) = (r, { s with
      oracle := o, trace := s.trace ++ [.sleep 20, .config 7 10 r] }) := by
    simp [linkConfigure, linkSleep, State.record, h]
  refine ⟨?_, ?_⟩ <;> rintro rfl <;> simp only [echo, hconfigure]

/-- Where a drain read fails, the operation ends with READ_IO (R136, R141). -/
theorem complete_drain_err {garbage reads : List ReadResult} (hg : ∀ r ∈ garbage, r.Speaks) {s : State}
    (hs : s.oracle.reads = garbage ++ .err :: reads) :
    complete 0x01 (drainAndEcho Config.codec s) =
      (s.drained (garbage ++ [.err]) reads).desync.ended 0x01 { cls := .linkFatal, code := 0x05 } 0 1 := by
  obtain ⟨herr, -⟩ := drain_ends hg hs
  simp only [drainAndEcho, herr rfl, Res.bind]
  exact complete_bringUp_raise _ (by decide)

/-- Where the drain ends and the blocking configure fails, the operation ends with LINK_ATTR (R139, R141). -/
theorem complete_configure_err {garbage reads : List ReadResult} (hg : ∀ r ∈ garbage, r.Speaks) {configures : List ConfigResult} {s : State}
    (hs : s.oracle.reads = garbage ++ .ok [] :: reads) (hc : s.oracle.configures = .err :: configures) :
    complete 0x01 (drainAndEcho Config.codec s) = (({ s.desync with
      oracle := { s.oracle with reads := reads, configures := configures }
      trace := s.trace ++ readEvents garbage ++ [.rx 1 (.ok []), .sleep 20, .config 7 10 .err] } : State).ended 0x01
        { cls := .linkFatal, code := 0x03 } 0 0) := by
  obtain ⟨-, hok⟩ := drain_ends hg hs
  obtain ⟨herr, -⟩ := echo_eq Config.codec (s := s.drained (garbage ++ [.ok []]) reads) (Oracle.takeConfigure_known hc)
  simp only [drainAndEcho, hok rfl, Res.bind, herr rfl]
  rw [complete_bringUp_raise _ (by decide)]
  simp [State.drained, State.desync, ReadResult.within, ErrorCode.cls, ErrorCode.num]

/-- Where the drain ends and the blocking configure succeeds, the operation goes on to the echo's exchange (R139, R140). -/
theorem drainAndEcho_configured {garbage reads : List ReadResult} (hg : ∀ r ∈ garbage, r.Speaks) {configures : List ConfigResult} {s : State}
    (hs : s.oracle.reads = garbage ++ .ok [] :: reads) (hc : s.oracle.configures = .ok :: configures) :
    drainAndEcho Config.codec s = exchange Config.codec .echo (s.atEcho garbage reads configures) := by
  obtain ⟨-, hok⟩ := drain_ends hg hs
  obtain ⟨-, hecho⟩ := echo_eq Config.codec (s := s.drained (garbage ++ [.ok []]) reads) (Oracle.takeConfigure_known hc)
  simp only [drainAndEcho, hok rfl, Res.bind, hecho rfl]
  simp [State.drained, State.atEcho, ReadResult.within]

/-! ### A step from the drain -/

/-- Settles O33: the drain takes every known answer and has not ended (`drain_running`). -/
theorem drainHasNoBound : Obligations.DrainHasNoBound := by
  intro s garbage hne hg hp hbusy hw hr hs
  rw [step_of_undisturbed s hr, stepRunning_draining hp hw]
  simp only [drainAndEcho, drain_running hg hne hs, Res.bind, complete]
  rfl

/-- Settles O60: the step is the rest of the bring-up, which the read, the blocking configure, the echo's write, its receive or the
response's kind ends, in this order. -/
theorem resumedDrainEndsBringUp : Obligations.ResumedDrainEndsBringUp := by
  intro s garbage reads hg hp hw hr
  rw [step_of_undisturbed s hr, stepRunning_draining hp hw]
  refine ⟨fun hs => ?_, fun configures hs hc => ?_, fun configures writes echoing hpkt hs hc hechoing => ?_⟩
  · rw [complete_drain_err hg hs]
    simp [State.drained, State.desync, ReadResult.within]
  · rw [complete_configure_err hg hs hc]
  rw [drainAndEcho_configured hg hs hc]
  refine ⟨fun hw' => ?_, fun n hn hw' => ?_, fun hw' => ?_⟩
  · obtain ⟨herr, -⟩ := complete_echo_unsent (s := s.atEcho garbage reads configures) hpkt hw'
    rw [herr rfl, hechoing]
    rfl
  · obtain ⟨-, hshort⟩ := complete_echo_unsent (s := s.atEcho garbage reads configures) hpkt hw'
    rw [hshort n hn rfl, hechoing]
    rfl
  obtain ⟨hraise, hok⟩ := complete_echo_sent (s := s.atEcho garbage reads configures) hpkt hw' rfl
  refine ⟨fun e u hu => ?_, ?_⟩
  · rw [hechoing] at hu
    obtain ⟨hl, hr, -, -, -, -, -, hb, -⟩ := (received_of_raise hu).ran.keeps
    exact ⟨hl, hr, hb, congrArg _ (hraise e u hu)⟩
  · rintro f kind value rest rfl hf
    obtain ⟨hsynced, hother⟩ := hok kind value _ (receivePacket_known (rest := rest) rfl hf)
    refine ⟨?_, fun hk => ?_⟩
    · rintro rfl
      rw [hsynced rfl, hechoing]
      simp [State.holding, State.echoSent, State.atEcho, State.ended, State.sending]
    · rw [hother hk, hechoing]
      simp [State.holding, State.echoSent, State.atEcho, State.ended, State.sending, State.desync]

end Sys2Proof.Machine
end

section
/-! SUPPORT. OPEN_AND_SYNC from its acceptance (42_sync.md R131 to R135): the open and the drain configure, the probe, and the state in which
it reaches the drain. -/

namespace Sys2Proof.Machine

/-! ### Opening the link -/

/-- Where `LinkOpen` fails, step 1 raises its error with the link closed (R131, R132). -/
theorem openLink_refused {s : State} {e : OpenError} {o : Oracle} (h : s.oracle.takeOpen = (.err e, o)) :
    openLink s = .raise { code := e.code, a := 0, b := 0 } { s with
      link := .closed, regime := .unconfigured, sync := .unsynced, mode := .idle, oracle := o
      trace := s.trace ++ closing s ++ [.linkOpen (.err e)] } := by
  simp only [openLink, closeIfOpen_closed, linkOpen, h]
  rfl

/-- Where `LinkOpen` succeeds, step 1 is decided by the drain configure (R131, R132). -/
theorem openLink_opened {s : State} {r : ConfigResult} {o1 o2 : Oracle} (ho : s.oracle.takeOpen = (.ok, o1))
    (hc : o1.takeConfigure = (r, o2)) :
    (r = .err → openLink s = .raise { code := .linkAttr, a := 0, b := 0 } { s with
      link := .opened, regime := .unconfigured, sync := .unsynced, mode := .idle, oracle := o2
      trace := s.trace ++ closing s ++ [.linkOpen .ok, .config 0 0 .err] }) ∧
    (r = .ok → openLink s = .ok () { s with
      link := .opened, regime := .drain, sync := .seekingHeader, mode := .idle, oracle := o2
      trace := s.trace ++ closing s ++ [.linkOpen .ok, .config 0 0 .ok] }) := by
  refine ⟨?_, ?_⟩ <;> rintro rfl <;> simp only [openLink, closeIfOpen_closed, linkOpen, ho, linkConfigure, State.record, hc] <;> simp

/-! ### The probe's start and its end -/

/-- The state in which an accepted OPEN_AND_SYNC starts its probe: the link open, the drain regime configured and the SYNC packet built
(R131, R181). -/
def State.opened (o : Oracle) (s : State) : State :=
  { s with
    busy := true, link := .opened, regime := .drain, sync := .seekingHeader, mode := .idle, txPkt := cmdPacket 0x30 0 0, crcReg := 0xE459
    written := { s.written with crcReg := true, txPkt := true }, oracle := o
    trace := s.trace ++ closing s ++ [.linkOpen .ok, .config 0 0 .ok] }

theorem crcRun_sync : crcRun (0xFFFF : Word16) (cmdBody 0x30 0 0) = 0xE459 := by decide +kernel

/-- Where step 1 raises, nothing is probed (R131). -/
theorem openAndProbe_of_raise {C : Codec} {s t : State} {e : Raise} (h : openLink s = .raise e t) : openAndProbe C s = .raise e t := by
  simp only [openAndProbe, h, Res.bind]

/-- Steps 1 and 2 where the link opens and its drain regime is configured (R131, R133). -/
theorem openAndProbe_opened (C : Codec) {s : State} {opens : List OpenResult} {configures : List ConfigResult}
    (ho : s.oracle.opens = .ok :: opens) (hc : s.oracle.configures = .ok :: configures) :
    openAndProbe C s.accepted =
      (probe C (cmdPacket 0x30 0 0) (s.opened { s.oracle with opens := opens, configures := configures })).bind
        fun _ t => .ok () { t with sync := .drainingGarbage, point := .draining } := by
  obtain ⟨-, hok⟩ := openLink_opened (s := s.accepted) (Oracle.takeOpen_known ho) (Oracle.takeConfigure_known hc)
  simp only [openAndProbe, hok rfl, Res.bind, buildSync_eq, crcRun_sync]
  rfl

/-! ### The request -/

/-- Where steps 1 and 2 raise, OPEN_AND_SYNC ends with that error (R141). -/
theorem exec_openAndSync_of_raise (a b : Word16) {s t : State} {e : Raise} (h : openAndProbe Config.codec s.accepted = .raise e t)
    (he : e.code ∈ codesOf 0x01) :
    exec (.openAndSync a b) s = .next (t.desync.ended 0x01 { cls := e.code.cls, code := e.code.num } e.a e.b) := by
  show Host.Outcome.next (complete 0x01 (openAndSyncOp Config.codec s.accepted)) = _
  simp only [openAndSyncOp, h, Res.bind]
  rw [complete_bringUp_raise t he]

/-- Where steps 1 and 2 go on, the rest of OPEN_AND_SYNC is that of its drain (R136). -/
theorem exec_openAndSync_of_probed (a b : Word16) {s t : State} (h : openAndProbe Config.codec s.accepted = .ok () t) :
    exec (.openAndSync a b) s = .next (complete 0x01 (drainAndEcho Config.codec t)) := by
  show Host.Outcome.next (complete 0x01 (openAndSyncOp Config.codec s.accepted)) = _
  simp only [openAndSyncOp, h, Res.bind]

/-- The state at the drain, where attempt `k + 1` of the probe was answered by this byte (R133, R135, R136). -/
def State.atDrain (k : Nat) (byte : Byte) (o : Oracle) (s : State) : State :=
  { s.sending 0x30 0 0 with
    link := .opened, regime := .drain, sync := .drainingGarbage, mode := .idle, syncCount := k + 1, crcReg := 0xE459
    written := { s.written with crcReg := true, txPkt := true, txFrame := true }, busy := true, point := .draining, oracle := o
    trace := s.trace ++ closing s ++ [.linkOpen .ok, .config 0 0 .ok] ++ probeEvents (Config.codec.enc (cmdPacket 0x30 0 0)) k ++
      [.tx (Config.codec.enc (cmdPacket 0x30 0 0)) (.ok 9), .rx 1 (.ok [byte])] }

section
variable (a b : Word16) {s : State} {opens : List OpenResult} {configures : List ConfigResult} (ho : s.oracle.opens = .ok :: opens)
  (hc : s.oracle.configures = .ok :: configures) {k : Nat} {writes : List WriteResult} {reads : List ReadResult}
include ho hc

/-- OPEN_AND_SYNC where the probe raises. -/
theorem exec_openAndSync_of_probe_raise {t : State} {e : Raise} (he : e.code ∈ probeCodes)
    (h : probe Config.codec (cmdPacket 0x30 0 0) (s.opened { s.oracle with opens := opens, configures := configures }) =
      .raise e t) :
    exec (.openAndSync a b) s = .next (t.desync.ended 0x01 { cls := e.code.cls, code := e.code.num } e.a e.b) := by
  refine exec_openAndSync_of_raise a b ?_ ((by decide : probeCodes ⊆ codesOf 0x01) he)
  rw [openAndProbe_opened Config.codec ho hc, h, Res.bind]

/-- OPEN_AND_SYNC where a byte answers attempt `k + 1` of the probe: the rest of it is that of its drain (R133, R135). -/
theorem exec_openAndSync_of_answer (hk : k < 100) {byte : Byte} {bytes : List Byte}
    (hw : s.oracle.writes = List.replicate (k + 1) (.ok 9) ++ writes)
    (hr : s.oracle.reads = List.replicate k (.ok []) ++ .ok (byte :: bytes) :: reads) :
    exec (.openAndSync a b) s = .next (complete 0x01 (drainAndEcho Config.codec (s.atDrain k byte
      { opens := opens, configures := configures, reads := reads, writes := writes, drawn := s.oracle.drawn }))) := by
  obtain ⟨-, hok⟩ := probe_read (encoded_length 0x30 0 0) hk
    (s := s.opened { s.oracle with opens := opens, configures := configures }) hw hr rfl
  refine exec_openAndSync_of_probed a b ?_
  rw [openAndProbe_opened Config.codec ho hc, hok byte bytes rfl, Res.bind]
  rfl

end

/-- Settles O31: the probe exhausts its budget (`probe_exhausted`). -/
theorem silentSensorExhaustsBringUp : Obligations.SilentSensorExhaustsBringUp := by
  intro a b s opens configures reads writes ho hc hr hw
  have hprobe := probe_exhausted (encoded_length 0x30 0 0)
    (s := s.opened { s.oracle with opens := opens, configures := configures }) hw hr
  rw [exec_openAndSync_of_probe_raise a b ho hc (by decide) hprobe]
  rfl

/-- Settles O32: the probe is answered, the drain ends, and the echo's response is a sync-ok. -/
theorem openAndSyncSucceeds : Obligations.OpenAndSyncSucceeds := by
  intro a b value s k byte bytes f garbage reads opens configures writes hk hg hf ho hc hw hr
  rw [exec_openAndSync_of_answer a b ho hc hk hw hr, drainAndEcho_configured hg rfl rfl]
  obtain ⟨-, hok⟩ := complete_echo_sent (s := State.atEcho garbage (.ok f :: reads) configures (s.atDrain k byte
    { opens := opens, configures := .ok :: configures, reads := garbage ++ .ok [] :: .ok f :: reads, writes := .ok 9 :: writes
      drawn := s.oracle.drawn })) rfl rfl rfl
  obtain ⟨hsynced, -⟩ := hok 0x01 value _ (receivePacket_known (rest := reads) rfl hf)
  rw [hsynced rfl]
  simp [State.holding, State.echoSent, State.atEcho, State.atDrain, State.ended, State.sending, closing]

/-! ### The failing calls -/

/-- Settles O29: the open, the drain configure, the probe, the drain, the blocking configure and the echo, each by the lemma that says
where its failing call ends the operation. -/
theorem failedOpenEndsBringUp : Obligations.FailedOpenEndsBringUp := by
  intro a b s o1 o2 session hsession
  obtain rfl : session = closing s := hsession
  refine ⟨fun e ho => ?_, fun ho hc => ?_, ?_, ?_⟩
  · rw [exec_openAndSync_of_raise a b (openAndProbe_of_raise (openLink_refused (s := s.accepted) ho)) (by cases e <;> decide)]
    cases e <;> rfl
  · obtain ⟨herr, -⟩ := openLink_opened (s := s.accepted) ho hc
    rw [exec_openAndSync_of_raise a b (openAndProbe_of_raise (herr rfl)) (by decide)]
    rfl
  · intro k opens configures writes reads reached hk ho hc hw hreached
    refine ⟨fun hr => ?_, fun byte bytes garbage hg => ⟨fun hr => ?_, ?_, ?_⟩⟩
    · obtain ⟨herr, -⟩ := probe_read (encoded_length 0x30 0 0) hk
        (s := s.opened { s.oracle with opens := opens, configures := configures }) hw hr rfl
      rw [exec_openAndSync_of_probe_raise a b ho hc (by decide) (herr rfl), hreached]
      simp [State.desync, State.opened, State.ended, State.sending, ReadResult.within, ErrorCode.cls, ErrorCode.num]
    · rw [exec_openAndSync_of_answer a b ho hc hk hw hr, complete_drain_err hg rfl, hreached]
      simp [State.desync, State.drained, State.atDrain, State.ended, State.sending, ReadResult.within]
    · rintro others rfl hr
      rw [exec_openAndSync_of_answer a b ho hc hk hw hr, complete_configure_err hg rfl rfl, hreached]
      simp [State.desync, State.atDrain, State.ended, State.sending]
    · rintro others sent echoing rfl hr hechoing
      rw [exec_openAndSync_of_answer a b ho hc hk hw hr, drainAndEcho_configured hg rfl rfl]
      generalize hv : State.atEcho garbage reads others (s.atDrain k byte _) = v
      have hpkt : v.txPkt = cmdPacket 0x30 0 0 := hv ▸ rfl
      have hwrites : v.oracle.writes = writes := hv ▸ rfl
      have hsent (r : WriteResult) : v.echoSent r sent = { echoing [.tx (Config.codec.enc (cmdPacket 0x30 0 0)) r] with
          sync := .awaitingEcho, busy := true, point := .draining
          written := { s.written with crcReg := true, txPkt := true, txFrame := true } } := by
        simp [← hv, hechoing, hreached, State.echoSent, State.atEcho, State.atDrain, State.sending]
      refine ⟨fun hsend => ?_, fun n hn hsend => ?_, fun hsend => ?_⟩
      · obtain ⟨herr, -⟩ := complete_echo_unsent hpkt (hwrites.trans hsend)
        rw [herr rfl, hsent, hechoing, hreached]
        rfl
      · obtain ⟨-, hshort⟩ := complete_echo_unsent hpkt (hwrites.trans hsend)
        rw [hshort n hn rfl, hsent, hechoing, hreached]
        rfl
      obtain ⟨hraise, hok⟩ := complete_echo_sent hpkt (hwrites.trans hsend) rfl
      rw [hsent] at hraise hok
      refine ⟨fun e u hu => ?_, fun f kind value rest hrest hf hkind => ?_⟩
      · obtain ⟨hl, hr, -, -, -, -, hcount, -⟩ := (received_of_raise hu).ran.keeps
        rw [hechoing, hreached] at hl hr hcount
        exact ⟨hl, hr, hcount, congrArg _ (hraise e u hu)⟩
      · have hreads : (echoing [.tx (Config.codec.enc (cmdPacket 0x30 0 0)) (.ok 9)]).oracle.reads = .ok f :: rest := by
          rw [hechoing, hreached, hrest]
        obtain ⟨-, hother⟩ := hok kind value _ (receivePacket_known hreads hf)
        rw [hother hkind, hechoing, hechoing, hreached, hreached]
        simp [State.holding, State.ended, State.desync, State.sending]
  · intro k opens configures writes reads stopped hk ho hc hr hstopped
    refine ⟨fun hw => ?_, fun n hn hw => ?_⟩
    · obtain ⟨herr, -⟩ := probe_write (encoded_length 0x30 0 0) hk
        (s := s.opened { s.oracle with opens := opens, configures := configures }) hw hr (fun _ => rfl)
      rw [exec_openAndSync_of_probe_raise a b ho hc (by decide) (herr rfl), hstopped]
      rfl
    · obtain ⟨-, hshort⟩ := probe_write (encoded_length 0x30 0 0) hk
        (s := s.opened { s.oracle with opens := opens, configures := configures }) hw hr (fun _ => rfl)
      rw [exec_openAndSync_of_probe_raise a b ho hc (by decide : ErrorCode.writeCount ∈ probeCodes) (hshort n hn rfl), hstopped]
      rfl

end Sys2Proof.Machine
end

section
/-! SUPPORT. How OPEN_AND_SYNC and the exchanges end (42_sync.md R130, R140, R141; 44_commands.md R185 to R187): a failed bring-up is
unsynchronized, only a successful one synchronizes, and an expected response ends its operation with success. -/

namespace Sys2Proof.Machine

/-! ### A failed bring-up -/

/-- Unless it succeeded, the state is unsynchronized and in no mode. -/
def State.FailsUnsynced (s : State) : Prop := s.status.cls ≠ .none → s.sync = .unsynced ∧ s.mode = .idle

/-- An end with success is no failure. -/
theorem State.failsUnsynced_of_success (op : Byte) (s : State) : (s.ended op Status.success 0 0).FailsUnsynced := fun h => absurd rfl h

theorem State.desync_failsUnsynced (op : Byte) (st : Status) (a b : Word16) (s : State) : (s.desync.ended op st a b).FailsUnsynced :=
  fun _ => ⟨rfl, rfl⟩

/-- OPEN_AND_SYNC raises no usage error (R214). -/
theorem cls_ne_usage_of_bringUp {c : ErrorCode} (h : c ∈ codesOf 0x01) : c.cls ≠ .usage :=
  (by decide : ∀ c ∈ codesOf 0x01, c.cls ≠ .usage) c h

/-- An OPEN_AND_SYNC that ended in the step that accepted it failed unsynchronized or succeeded (R141). -/
theorem RequestOutcome.failsUnsynced {s t : State} {op : Byte} (h : RequestOutcome s op t) (hop : op = 0x01) (hp : t.point = .idle) :
    t.FailsUnsynced := by
  cases h with
  | draining u hu hd =>
    obtain ⟨-, -, -, hdraining, -⟩ := hd
    rw [hdraining] at hp
    cases hp
  | synced u hu hl hr hs => exact u.failsUnsynced_of_success _
  | usage op c a b hc hu => exact absurd hu (cls_ne_usage_of_bringUp (hop ▸ hc))
  | openFailed e u hc hu => exact u.desync_failsUnsynced _ _ _ _
  | modeFailed op opc low high e u p f ho hs hc hcls hu =>
    obtain ⟨rfl, -⟩ | ⟨rfl, -⟩ := ho <;> exact absurd hop (by decide)
  | _ => exact absurd hop (by decide)

theorem Exchange.eq_echo_of_op {x : Exchange} (h : x.op = 0x01) : x = .echo := by
  by_contra hx
  exact Exchange.op_ne_bringUp hx h

/-- So did one that ended in a later step (R141). -/
theorem RunOutcome.failsUnsynced {s t : State} (h : RunOutcome s t) (hop : s.point.op = some 0x01) (hp : t.point = .idle) :
    t.FailsUnsynced := by
  cases h with
  | waiting hidle _ | accepted hidle | built _ hidle => simp [hidle, Point.op] at hop
  | drained hdraining hw =>
    rcases drainAndEcho_spec Config.codec s with ⟨o, es, -, hd⟩ | ⟨frame, u, -, -, hd | ⟨e, he, hd | hd⟩⟩ <;> rw [hd] at hp ⊢
    · rw [show s.point = .idle from hp] at hdraining
      cases hdraining
    · exact State.failsUnsynced_of_success _ _
    all_goals
      rw [complete_bringUp_raise _ (echoCodes_subset he)]
      exact State.desync_failsUnsynced _ _ _ _ _
  | judged x hawaiting u hu kind value =>
    simp only [hawaiting, Point.op, Option.some.injEq] at hop
    obtain rfl := Exchange.eq_echo_of_op hop
    by_cases hk : kind = 0x01
    · subst hk
      exact State.failsUnsynced_of_success _ { u with sync := .synced }
    · rw [judge_of_ne_wanted hk, complete_raise, raiseEffect_fatal _ _ _ (.inr Exchange.echo.mismatch_cls)]
      exact u.desync_failsUnsynced _ _ _ _
  | refused x hawaiting u hu e he =>
    simp only [hawaiting, Point.op, Option.some.injEq] at hop
    rw [hop, complete_bringUp_raise u (receiveCodes_subset he)]
    exact u.desync_failsUnsynced _ _ _ _

/-- Settles O34: in the step that accepts OPEN_AND_SYNC and in a later one, each way it can end is a success or desynchronizes. -/
theorem failedBringUpLeavesUnsynced : Obligations.FailedBringUpLeavesUnsynced := by
  rintro s t ⟨hp, ⟨i, hi, hexec⟩ | ⟨hr, hop, hstep⟩⟩
  · obtain ⟨u, hu, hout⟩ := exec_request_outcome i 0x01 s hi
    rw [hexec] at hu
    cases hu
    exact hout.failsUnsynced rfl hp
  · rw [step_of_undisturbed s hr] at hstep
    exact (running_cases s t hstep).failsUnsynced hop hp

/-! ### Who synchronizes -/

/-- The last event is the `DONE` of a successful OPEN_AND_SYNC. -/
def BringUpDone (s t : State) : Prop :=
  ∃ events, t.trace = s.trace ++ events ++ [.done 0x01 { cls := .none, code := 0x00 } 0 0 t.result]

theorem BringUpDone.of_trace {s u : State} {events : List Event} (h : u.trace = s.trace ++ events) :
    BringUpDone s (u.ended 0x01 Status.success 0 0) := ⟨events, congrArg (· ++ _) h⟩

theorem Opened.trace {C : Codec} {s t : State} (h : Opened C s t) : ∃ events, t.trace = s.trace ++ events := by
  obtain ⟨l, g, y, n, k, c, pkt, frame, x, p, w, o, pt, es, -, -, -, rfl⟩ := h
  exact ⟨closing s ++ es, List.append_assoc _ _ _⟩

theorem Ran.bringUpDone {P : Event → Prop} {pkt frame : List Byte} {s u : State} (h : Ran P pkt frame s u) (g : Regime) :
    BringUpDone s (({ u with regime := g, sync := .synced } : State).ended 0x01 Status.success 0 0) := by
  obtain ⟨es, htr, -⟩ := h.trace
  exact .of_trace htr

/-- An error makes nothing synchronized (R216 to R218). -/
theorem raiseEffect_synced {op : Byte} {e : Raise} {s : State} (h : (raiseEffect op e s).sync = .synced) : s.sync = .synced := by
  rcases raiseEffect_spec op e s with ⟨he, -⟩ | ⟨he, -⟩ <;> rw [he] at h
  · cases h
  · exact h

/-- Of the requests, only a successful OPEN_AND_SYNC synchronizes (R130). -/
theorem RequestOutcome.synced_cases {s t : State} {op : Byte} (h : RequestOutcome s op t) (ht : t.sync = .synced) :
    s.sync = .synced ∨ BringUpDone s t := by
  cases h with
  | draining u hu hd =>
    obtain ⟨-, -, hsync, -⟩ := hd
    rw [hsync] at ht
    cases ht
  | synced u hu hl hr hs =>
    obtain ⟨events, htr⟩ := hu.trace
    exact .inr (.of_trace htr)
  | closed | openFailed => cases ht
  | rawMode u p f hs hu => exact .inl hs
  | triggerMode u p f low high hs hl hu => exact .inl hs
  | reading u value hs hm hu => exact .inl hs
  | modeFailed op opc low high e u p f ho hs hc hcls hu => exact .inl hs
  | readFailed e u hs hm hc hcls hu => exact .inl hs
  | crc | debug | usage => exact .inl ht

/-- So of the ways a step can go on (R130, R140). -/
theorem RunOutcome.synced_cases {s t : State} (h : RunOutcome s t) (ht : t.sync = .synced) : s.sync = .synced ∨ BringUpDone s t := by
  cases h with
  | waiting hp hq => exact .inl ht
  | accepted hp hb r rest op t hq hout => exact hout.synced_cases ht
  | built command hp opc low high => exact .inl ht
  | drained hp hw =>
    rcases drainAndEcho_spec Config.codec s with ⟨o, es, -, hd⟩ | ⟨frame, u, -, hu, hd | ⟨e, he, hd | hd⟩⟩ <;> rw [hd] at ht ⊢
    · exact .inl ht
    · exact .inr (hu.bringUpDone .blocking)
    all_goals
      rw [complete_bringUp_raise _ (echoCodes_subset he)] at ht
      cases ht
  | judged x hp u hu kind value =>
    obtain ⟨-, -, hsync, -⟩ := hu.ran.keeps
    rcases judge_spec x kind value u with ⟨e, hj, -⟩ | ⟨rfl, hj⟩ | ⟨rfl, hj⟩ | ⟨rfl, hj⟩ | ⟨rfl, hj⟩ <;> rw [hj] at ht ⊢
    · rw [complete_raise] at ht
      exact .inl (hsync.symm.trans (raiseEffect_synced ht))
    · exact .inr (hu.ran.bringUpDone u.regime)
    all_goals exact .inl (hsync.symm.trans ht)
  | refused x hp u hu e he =>
    obtain ⟨-, -, hsync, -⟩ := hu.ran.keeps
    rw [complete_raise] at ht
    exact .inl (hsync.symm.trans (raiseEffect_synced ht))

/-- Settles O57: each way a step can go on keeps an unsynchronized engine so, or is the success of OPEN_AND_SYNC. -/
theorem onlyBringUpSynchronizes : Obligations.OnlyBringUpSynchronizes := by
  intro s t hr hstep hs ht
  rw [step_of_undisturbed s hr] at hstep
  exact ((running_cases s t hstep).synced_cases ht).resolve_left hs

/-! ### An expected response -/

/-- The tag of the response that the exchange expects (R77, R83). -/
def Exchange.tag (P : Params) : Exchange → Byte
  | .echo => P.kindSyncOk
  | .rawMode => P.kindRawAck
  | .triggerMode => P.kindTriggerAck
  | .reading => P.kindSensorValue

/-- What the expected response writes (R140, R185 to R187). -/
def Exchange.succeed (value : Word16) (s : State) : Exchange → State
  | .echo => { s with sync := .synced }
  | .rawMode => { s with rawFlag := true, mode := .rawConfigured }
  | .triggerMode => { s with mode := .triggerConfigured }
  | .reading => { s with result := value }

/-- The expected response, executed where it is awaited, ends the operation with success, whatever the tags are (R77, R83). -/
theorem respond_expected {x : Exchange} {s : State} (hp : s.point = .awaiting x) (value : Word16) (P : Params) :
    respond (x.tag P) value s P = (x.succeed value s).ended x.op { cls := .none, code := 0x00 } 0 0 := by
  have hrespond : respond (x.tag P) value s P = complete x.op (judge x (x.tag P) value s P) := by simp only [respond, hp]
  rw [hrespond]
  cases x <;> exact congrArg (complete _) (if_pos rfl)

/-- Settles O13: each clause is `respond_expected` at its exchange, for `exec` at this hardware's tags. -/
theorem awaitedResponseEndsOperation : Obligations.AwaitedResponseEndsOperation := by
  refine fun P value crc s t => ⟨?_, ?_, ?_, ?_⟩ <;> rintro hp rfl <;>
    exact ⟨congrArg _ (respond_expected hp value Config.params), congrArg _ (respond_expected hp value P)⟩

end Sys2Proof.Machine
end

section
/-! SUPPORT. SendCommand and ReceivePacket by the answers of the link (43_send_receive.md R160 to R169), and how the operations end that they
raise in (60_exceptions.md R216, R217). -/

namespace Sys2Proof.Machine

/-! ### What the link may answer -/

theorem Oracle.takeWrite_count {o o' : Oracle} {len n : Nat} (h : o.takeWrite len = (.ok n, o')) : n ≤ len := by
  unfold Oracle.takeWrite at h
  split at h <;> exact WriteResult.within_count (congrArg Prod.fst h)

theorem Oracle.takeRead_length {o o' : Oracle} {n : Nat} {bytes : List Byte} (h : o.takeRead n = (.ok bytes, o')) : bytes.length ≤ n := by
  unfold Oracle.takeRead at h
  split at h <;> exact ReadResult.within_length (congrArg Prod.fst h)

theorem sat16_of_le {n : Nat} (h : n ≤ 0xFFFF) : sat16 n = BitVec.ofNat 16 n := by rw [sat16, Nat.min_eq_left h]

/-! ### SendCommand -/

/-- A send of a nine-byte frame, by the answer of its one write: the count it reports is at most nine, so that no diagnostic saturates (R160,
R161). -/
theorem sendCommand_of_takeWrite {C : Codec} {pkt : List Byte} (hlen : (C.enc pkt).length = 9) {s t : State} {r : WriteResult} {o : Oracle}
    (h : s.oracle.takeWrite 9 = (r, o))
    (ht : t = { s with
      txFrame := C.enc pkt, written := { s.written with txFrame := true }, oracle := o, trace := s.trace ++ [.tx (C.enc pkt) r] }) :
    (r = .err → sendCommand C pkt s = .raise { code := .writeIo, a := 0, b := 9 } t) ∧
      (r = .ok 9 → sendCommand C pkt s = .ok () t) ∧
      (∀ n, n ≠ 9 → r = .ok n → sendCommand C pkt s = .raise { code := .writeCount, a := BitVec.ofNat 16 n, b := 9 } t) := by
  obtain ⟨herr, hok, hcount⟩ := sendCommand_eq C pkt s t r o (by rw [hlen, h]) ht
  refine ⟨herr, hok, fun n hn hr => ?_⟩
  subst hr
  have hle : n ≤ 9 := Oracle.takeWrite_count h
  rw [hcount n hn rfl, sat16_of_le (by omega)]

/-- Settles O24: the frame of a seven-byte packet has nine bytes (R110), and `sendCommand_of_takeWrite` says what its one write comes to. -/
theorem sendCommandWritesOnce : Obligations.SendCommandWritesOnce := by
  intro pkt s t r o hpkt h ht
  have hlen := encoded_length_of_seven hpkt
  exact ⟨hlen, sendCommand_of_takeWrite hlen h ht⟩

/-! ### A command that is not sent whole -/

/-- On a synchronized engine SET_RAW_MODE is its exchange (R185). -/
theorem exec_setRawMode_of_synced {s : State} (a b : Word16) (hs : s.sync = .synced) :
    exec (.setRawMode a b) s = .next (complete 0x02 (exchange Config.codec .rawMode (buildCmd 0x10 0 0 s.accepted))) := by
  have hop : setRawModeOp Config.codec s.accepted = exchange Config.codec .rawMode (buildRaw s.accepted) := if_pos hs
  exact congrArg (fun r => Host.Outcome.next (complete 0x02 r)) hop

/-- On a synchronized engine SET_TRIGGER_MODE with its thresholds in order is its exchange (R186). -/
theorem exec_setTriggerMode_of_synced {s : State} {low high : Word16} (hs : s.sync = .synced) (hl : low.toInt ≤ high.toInt) :
    exec (.setTriggerMode low high) s =
      .next (complete 0x03 (exchange Config.codec .triggerMode (buildCmd 0x20 low high s.accepted))) := by
  have hg : ¬ signedGt low high = true := fun h => not_lt.2 hl (of_decide_eq_true h)
  have hop : setTriggerModeOp Config.codec low high s.accepted =
      exchange Config.codec .triggerMode (buildTrigger low high s.accepted) := (if_pos hs).trans (if_neg hg)
  exact congrArg (fun r => Host.Outcome.next (complete 0x03 r)) hop

/-- An exchange whose write fails or falls short ends its request there, desynchronized: nothing is read (R161, R216). -/
theorem exec_of_unsent {i : Instr} {x : Exchange} {opc : Byte} {low high : Word16} {s : State} {o : Oracle} {unsent : WriteResult → State}
    (hexec : exec i s = .next (complete x.op (exchange Config.codec x (buildCmd opc low high s.accepted))))
    (hunsent : ∀ r, unsent r = { (s.sending opc low high).desync with
      crcReg := crcRun 0xFFFF (cmdBody opc low high), oracle := o
      trace := s.trace ++ [.tx (Config.codec.enc (cmdPacket opc low high)) r] }) :
    (s.oracle.takeWrite 9 = (.err, o) →
      exec i s = .next ((unsent .err).ended x.op { cls := .linkFatal, code := 0x06 } 0 9)) ∧
    (∀ n, n ≠ 9 → s.oracle.takeWrite 9 = (.ok n, o) →
      exec i s = .next ((unsent (.ok n)).ended x.op { cls := .linkFatal, code := 0x04 } (BitVec.ofNat 16 n) 9)) := by
  have hlen : (Config.codec.enc (buildCmd opc low high s.accepted).txPkt).length = 9 := encoded_length opc low high
  refine ⟨fun h => ?_, fun n hn h => ?_⟩ <;> rw [hexec, exchange, hunsent]
  · obtain ⟨herr, -⟩ := sendCommand_of_takeWrite (s := buildCmd opc low high s.accepted) hlen h rfl
    rw [herr rfl, Res.bind, complete_raise, raiseEffect_fatal _ _ _ (.inl rfl)]
    rfl
  · obtain ⟨-, -, hcount⟩ := sendCommand_of_takeWrite (s := buildCmd opc low high s.accepted) hlen h rfl
    rw [hcount n hn rfl, Res.bind, complete_raise, raiseEffect_fatal _ _ _ (.inl rfl)]
    rfl

theorem crcRun_raw : crcRun (0xFFFF : Word16) (cmdBody 0x10 0 0) = 0x84C8 := by decide +kernel

/-- Settles O25: each mode command is its exchange, which ends at its write (`exec_of_unsent`). -/
theorem partialWriteIsFatal : Obligations.PartialWriteIsFatal := by
  intro a b low high s o hs hl
  obtain ⟨hrawErr, hrawCount⟩ := exec_of_unsent (x := .rawMode) (o := o) (exec_setRawMode_of_synced a b hs) fun _ => rfl
  obtain ⟨htriggerErr, htriggerCount⟩ := exec_of_unsent (x := .triggerMode) (o := o) (exec_setTriggerMode_of_synced hs hl) fun _ => rfl
  rw [crcRun_raw] at hrawErr hrawCount
  exact ⟨fun h => ⟨hrawErr h, htriggerErr h⟩, fun n hn h => ⟨hrawCount n hn h, htriggerCount n hn h⟩⟩

/-! ### ReceivePacket -/

/-- A frame whose last byte is not 0x00 is lost, whatever Resync comes to (R165). -/
theorem discardFrame_eq (t u : State) :
    (resync t = .ok false u → discardFrame t = .raise { code := .outOfSync, a := sat16 u.resyncCount, b := 0 } u) ∧
    (resync t = .ok true u → discardFrame t = .raise { code := .frameDiscarded, a := sat16 u.resyncCount, b := 0 } u) ∧
    (∀ e, resync t = .raise e u → discardFrame t = .raise e u) := by
  refine ⟨fun h => ?_, fun h => ?_, fun e h => ?_⟩ <;> rw [discardFrame, h] <;> rfl

/-- A frame that does not decode, or decodes to no byte, is a failed decode (R166). -/
theorem unpackFrame_undecoded {C : Codec} {t : State} (n : Nat) (h : C.dec t.rxFrame = none ∨ C.dec t.rxFrame = some []) :
    unpackFrame C n t = .raise { code := .decodeFailed, a := 0, b := 0 } t := by
  rcases h with h | h
  · simp only [unpackFrame, h]
  · simp only [unpackFrame, h, List.length_nil, if_true]

/-- A frame that decodes to bytes of another number than the packet's raises that number (R166). -/
theorem unpackFrame_wrongLength {C : Codec} {t : State} {n : Nat} {d : List Byte} (h : C.dec t.rxFrame = some d) (hne : d ≠ [])
    (hlen : d.length ≠ n) : unpackFrame C n t = .raise { code := .wrongDecLen, a := sat16 d.length, b := sat16 n } t := by
  simp only [unpackFrame, h, if_neg (mt List.length_eq_zero_iff.1 hne), if_neg hlen]

/-- A frame that decodes to five bytes is accepted or refused by their CRC (R167, R168). -/
theorem unpackFrame_response {C : Codec} {t u : State} {k v1 v0 c1 c0 : Byte} (h : C.dec t.rxFrame = some [k, v1, v0, c1, c0])
    (hu : u = { t with
      rxPkt := [k, v1, v0, c1, c0], crcReg := crcRun 0xFFFF [k, v1, v0], written := { t.written with rxPkt := true, crcReg := true } }) :
    unpackFrame C 5 t = if be16 c1 c0 = crc16 [k, v1, v0] 3 then .ok [k, v1, v0, c1, c0] u
      else .raise { code := .crcMismatch, a := be16 c1 c0, b := crc16 [k, v1, v0] 3 } u := by
  subst hu
  rw [unpackFrame, h]
  rfl

/-- Settles O26: `receivePacket_eq` goes through the checks up to the terminator, `discardFrame_eq` and the lemmas about `unpackFrame` through
those after it. -/
theorem receivePacketReportsFirstDefect : Obligations.ReceivePacketReportsFirstDefect := by
  intro C s r o t h
  refine ⟨fun bytes ht hr => ?_, ?_⟩
  · subst hr
    obtain ⟨-, hread⟩ := receivePacket_eq C s t _ bytes o h ht
    obtain ⟨hlen, hdiscard, hunpack⟩ := hread rfl
    have hframe : t.rxFrame = bytes := by rw [ht]
    have hle : bytes.length ≤ 7 := Oracle.takeRead_length h
    refine ⟨fun hn => ?_, fun hn h0 u => ?_, fun hn h0 => ?_⟩
    · rw [hlen hn, sat16_of_le (by omega)]
    · rw [hdiscard hn h0]
      exact discardFrame_eq t u
    · rw [hunpack hn h0, ← hframe]
      exact ⟨unpackFrame_undecoded 5, fun d hd hne h5 => unpackFrame_wrongLength hd hne h5,
        fun k v1 v0 c1 c0 hd => unpackFrame_response hd rfl⟩
  · rintro rfl
    obtain ⟨herr, -⟩ := receivePacket_eq C s _ _ [] o h rfl
    exact herr rfl

/-! ### A reading that loses its frame -/

/-- A reading whose frame does not end in 0x00 ends as Resync does: softly where it finds 0x00, else desynchronized (R165, R216, R217). -/
theorem exec_readSensorValue_misaligned {s t u : State} {f : List Byte} {reads : List ReadResult} (a b : Word16) (hs : s.sync = .synced)
    (hm : s.mode ≠ .idle) (hlen : f.length = 7) (hlast : f[6]? ≠ some 0x00) (hr : s.oracle.reads = .ok f :: reads)
    (ht : t = { s with
      busy := true, point := .awaiting .reading, rxFrame := f, written := { s.written with rxFrame := true }
      oracle := { s.oracle with reads := reads }, trace := s.trace ++ [.rx 7 (.ok f)] }) :
    (resync t = .ok false u → exec (.readSensorValue a b) s =
      .next (u.desync.ended 0x04 { cls := .protocolFatal, code := 0x13 } (sat16 u.resyncCount) 0)) ∧
    (resync t = .ok true u → exec (.readSensorValue a b) s =
      .next (u.ended 0x04 { cls := .soft, code := 0x20 } (sat16 u.resyncCount) 0)) ∧
    (resync t = .raise { code := .readIo, a := 0, b := 1 } u → exec (.readSensorValue a b) s =
      .next (u.desync.ended 0x04 { cls := .linkFatal, code := 0x05 } 0 1)) := by
  have htake : s.oracle.takeRead 7 = (.ok f, { s.oracle with reads := reads }) := by
    rw [Oracle.takeRead_known 7 hr, ReadResult.within, List.take_of_length_le hlen.le]
  obtain ⟨hread, -⟩ := receivePacketReportsFirstDefect Config.codec { s with busy := true, point := .awaiting .reading } _ _ t htake
  obtain ⟨-, hlost, -⟩ := hread f ht rfl
  obtain ⟨hmissed, hfound, hfailed⟩ := hlost hlen hlast u
  obtain ⟨-, hraise, -⟩ := exec_of_awaiting (x := .reading) (s := s) (t := { s with busy := true, point := .awaiting .reading })
    (by decide) rfl rfl (exec_readSensorValue_of_mode a b hs hm)
  exact ⟨fun h => hraise _ u (hmissed h), fun h => hraise _ u (hfound h), fun h => hraise _ u (hfailed _ h)⟩

/-- Settles O28: `exec_readSensorValue_misaligned` with each end of the scan (`resyncCountsReadAttempts`). -/
theorem misalignedFrameIsLost : Obligations.MisalignedFrameIsLost := by
  intro a b s f rs rest hs hm hlen hlast hrs
  refine ⟨fun bytes hlt hr => ?_, fun hn hr => ?_, fun hlt hr => ?_⟩
  · obtain ⟨-, hsoft, -⟩ := exec_readSensorValue_misaligned a b hs hm hlen hlast hr rfl
    obtain ⟨-, hfound, -⟩ := resyncCountsReadAttempts _ rs rest hrs
    rw [hsoft (hfound bytes hlt rfl), sat16_of_le (by simp only; omega)]
    rfl
  · obtain ⟨hmissed, -⟩ := exec_readSensorValue_misaligned a b hs hm hlen hlast hr rfl
    obtain ⟨hscan, -⟩ := resyncCountsReadAttempts _ rs rest hrs
    rw [hmissed (hscan hn rfl)]
    rfl
  · obtain ⟨-, -, hfailed⟩ := exec_readSensorValue_misaligned a b hs hm hlen hlast hr rfl
    obtain ⟨-, -, hscan⟩ := resyncCountsReadAttempts _ rs rest hrs
    rw [hfailed (hscan hlt rfl)]
    rfl

end Sys2Proof.Machine
end

section
/-! SUPPORT. The operand conversions (44_commands.md R188), the command rows (R180 to R183), and how the three commands end (R185 to R187). -/

namespace Sys2Proof.Machine

/-! ### Operands and command rows -/

theorem hi_toNat (v : Word16) : (hi v).toNat = v.toNat / 256 := by
  rw [hi, BitVec.toNat_ofNat]
  omega

theorem be16_toNat (h l : Byte) : (be16 h l).toNat = h.toNat * 256 + l.toNat := by
  rw [be16, BitVec.toNat_ofNat]
  omega

/-- The signed reading is two's complement (R188). -/
theorem sext16_eq (v : Word16) : sext16 v = if v.toNat < 0x8000 then (v.toNat : Int) else (v.toNat : Int) - 0x10000 := by
  rw [sext16, BitVec.toInt_eq_toNat_cond]
  split <;> split <;> omega

/-- Settles O6: each conversion on numbers, and the two round trips of the bytes. -/
theorem byteConversionsExact : Obligations.ByteConversionsExact :=
  ⟨fun v => ⟨hi_toNat v, BitVec.toNat_ofNat _ _, be16_hi_lo v⟩, fun h l => ⟨hi_be16 h l, lo_be16 h l, be16_toNat h l⟩, sext16_eq,
    fun _ _ => decide_eq_true_iff⟩

/-- BuildCmd writes the packet and the CRC register, and marks both as written (R180). -/
theorem buildCmd_eq_built (opc : Byte) (low high : Word16) (s : State) : buildCmd opc low high s = s.built opc low high := rfl

/-- Settles O11: `buildCmd_eq_built`, which each command row is with its own opcode and payload. -/
theorem commandRowsBuildPackets : Obligations.CommandRowsBuildPackets := by
  intro opc low high crc s
  refine ⟨buildCmd_eq_built opc low high s, fun P c hc => ?_, congrArg Host.Outcome.next (buildCmd_eq_built 0x30 0 0 s),
    congrArg Host.Outcome.next (buildCmd_eq_built 0x10 0 0 s), congrArg Host.Outcome.next (buildCmd_eq_built 0x20 low high s)⟩
  subst hc
  rfl

/-! ### The three commands -/

/-- Settles O23: the body's test of the thresholds comes before its exchange. -/
theorem thresholdsOutOfOrderRefused : Obligations.ThresholdsOutOfOrderRefused := by
  intro low high s hs hlt
  have hop : setTriggerModeOp Config.codec low high s.accepted = .raise { code := .badThresholds, a := low, b := high } s.accepted :=
    (if_pos hs).trans (if_pos (decide_eq_true hlt))
  show Host.Outcome.next (complete 0x03 (setTriggerModeOp Config.codec low high s.accepted)) = _
  rw [hop, complete_usage _ _ _ _ _ rfl]
  rfl

/-- A response of the kind wanted ends its operation with success (R83, R140, R185 to R187). -/
theorem complete_judge_wanted (x : Exchange) (value : Word16) (s : State) :
    complete x.op (judge x x.wanted value s) = (x.succeed value s).ended x.op Status.success 0 0 := by
  cases x <;> rfl

/-- A request that awaits its response from `t` on, and reads a frame of the kind wanted, ends with success (R162, R168). -/
theorem exec_of_frame {i : Instr} {x : Exchange} {s t : State} {f : List Byte} {value : Word16} {o : Oracle}
    (hexec : exec i s = .next (complete x.op (awaitResponse Config.codec x t))) (hp : t.point = .awaiting x)
    (hr : t.oracle.takeRead 7 = (.ok f, o)) (hf : FrameOf f x.wanted value) :
    exec i s = .next ((x.succeed value { t.holding f x.wanted value with oracle := o, trace := t.trace ++ [.rx 7 (.ok f)] }).ended x.op
      Status.success 0 0) := by
  obtain ⟨hlen, hlast, hdec⟩ := hf
  obtain ⟨-, hok⟩ := awaitResponse_eq Config.codec hp
  rw [hexec, hok _ _ _ (receivePacket_frame Config.codec t f x.wanted value o hr hlen hlast hdec), complete_judge_wanted]
  cases x <;> rfl

/-- Settles O19: once the command is sent (`exec_setRawMode_of_sent`), `exec_of_frame` says how it ends. -/
theorem setRawModeSucceeds : Obligations.SetRawModeSucceeds := by
  intro a b value f s o1 o2 hs hw hr hf
  obtain ⟨-, -, hraw, -⟩ := commandPacketIsItsWord
  rw [← hraw, List.append_cons]
  exact exec_of_frame (x := .rawMode) (exec_setRawMode_of_sent a b hs hw) rfl hr hf

/-- Settles O20: once the command is sent (`exec_setTriggerMode_of_sent`), `exec_of_frame` says how it ends. -/
theorem setTriggerModeSucceeds : Obligations.SetTriggerModeSucceeds := by
  intro low high value f s o1 o2 hs hl hw hr hf
  rw [List.append_cons]
  exact exec_of_frame (x := .triggerMode) (exec_setTriggerMode_of_sent hs hl hw) rfl hr hf

/-- Settles O21: READ_SENSOR_VALUE awaits its response from the start (`exec_readSensorValue_of_mode`). -/
theorem readSensorValueSucceeds : Obligations.ReadSensorValueSucceeds := by
  intro a b value f s o hs hm hr hf
  exact exec_of_frame (x := .reading) (t := { s with busy := true, point := .awaiting .reading })
    (exec_readSensorValue_of_mode a b hs hm) rfl hr hf

end Sys2Proof.Machine
end

section
/-! SUPPORT. How a step moves the mode (44_commands.md R189). -/

namespace Sys2Proof.Machine

/-- Why the mode has changed, as the trace's last event says, or an OPEN_AND_SYNC that still drains (R189). -/
def State.ModeMoved (t : State) : Prop :=
  (t.mode = .rawConfigured ∧ t.trace.getLast? = some (.done 0x02 { cls := .none, code := 0x00 } 0 0 t.result)) ∨
  (t.mode = .triggerConfigured ∧ t.trace.getLast? = some (.done 0x03 { cls := .none, code := 0x00 } 0 0 t.result)) ∨
  (t.mode = .idle ∧ ((t.busy = true ∧ t.point = .draining) ∨ ∃ op st x y z, t.trace.getLast? = some (.done op st x y z) ∧
    (op = 0x01 ∨ op = 0x07 ∨ st.cls = .linkFatal ∨ st.cls = .protocolFatal)))

/-- `DONE` is the last event of an operation that has ended (R205). -/
theorem State.ended_getLast? (op : Byte) (st : Status) (a b : Word16) (s : State) :
    (s.ended op st a b).trace.getLast? = some (.done op st a b s.result) := List.getLast?_concat

/-- SET_RAW_MODE's success (R185). -/
theorem State.modeMoved_rawMode (u : State) :
    (({ u with rawFlag := true, mode := .rawConfigured } : State).ended 0x02 Status.success 0 0).ModeMoved :=
  .inl ⟨rfl, State.ended_getLast? _ _ _ _ _⟩

/-- SET_TRIGGER_MODE's success (R186). -/
theorem State.modeMoved_triggerMode (u : State) :
    (({ u with mode := .triggerConfigured } : State).ended 0x03 Status.success 0 0).ModeMoved :=
  .inr (.inl ⟨rfl, State.ended_getLast? _ _ _ _ _⟩)

/-- The end of an OPEN_AND_SYNC, of a CLOSE or with a fatal error, in no mode (R131, R201, R216). -/
theorem State.modeMoved_idle {op : Byte} {st : Status} (a b : Word16) {u : State} (hm : u.mode = .idle)
    (h : op = 0x01 ∨ op = 0x07 ∨ st.cls = .linkFatal ∨ st.cls = .protocolFatal) : (u.ended op st a b).ModeMoved :=
  .inr (.inr ⟨hm, .inr ⟨op, st, a, b, u.result, u.ended_getLast? op st a b, h⟩⟩)

/-- An error keeps the mode, or desynchronizes: it is fatal, or one of OPEN_AND_SYNC (R216 to R218). -/
theorem complete_raise_mode (op : Byte) (e : Raise) (u : State) :
    (complete op (.raise e u)).mode = u.mode ∨ (complete op (.raise e u)).ModeMoved := by
  rw [complete_raise]
  rcases raiseEffect_spec op e u with ⟨h, hcls⟩ | ⟨h, -⟩ <;> rw [h]
  · refine .inr (State.modeMoved_idle e.a e.b u.desync_mode ?_)
    rcases hcls with hlink | hprotocol | ⟨-, hop⟩
    · exact .inr (.inr (.inl hlink))
    · exact .inr (.inr (.inr hprotocol))
    · exact .inl hop
  · exact .inl rfl

/-- How a request moves the mode (R189). -/
theorem RequestOutcome.mode_cases {s t : State} {op : Byte} (h : RequestOutcome s op t) : t.mode = s.mode ∨ t.ModeMoved := by
  cases h with
  | draining u hu hd =>
    obtain ⟨hmode, -, -, hbusy, -⟩ := hu.keeps
    obtain ⟨-, -, -, hpoint, -⟩ := hd
    exact .inr (.inr (.inr ⟨hmode, .inl ⟨hbusy, hpoint⟩⟩))
  | synced u hu hl hr hs =>
    obtain ⟨hmode, -⟩ := hu.keeps
    exact .inr (State.modeMoved_idle 0 0 hmode (.inl rfl))
  | rawMode u p f hs hu => exact .inr u.modeMoved_rawMode
  | triggerMode u p f low high hs hl hu => exact .inr u.modeMoved_triggerMode
  | reading u value hs hm hu =>
    obtain ⟨-, -, -, hmode, -⟩ := hu.keeps
    exact .inl hmode
  | crc | debug | usage => exact .inl rfl
  | closed => exact .inr (State.modeMoved_idle 0 0 rfl (.inr (.inl rfl)))
  | openFailed e u hc hu => exact .inr (State.modeMoved_idle e.a e.b rfl (.inl rfl))
  | modeFailed op opc low high e u p f ho hs hc hcls hu =>
    obtain ⟨-, -, -, hmode, -⟩ := hu.keeps
    rw [← complete_raise]
    exact (complete_raise_mode op e u).imp_left (·.trans hmode)
  | readFailed e u hs hm hc hcls hu =>
    obtain ⟨-, -, -, hmode, -⟩ := hu.keeps
    rw [← complete_raise]
    exact (complete_raise_mode 0x04 e u).imp_left (·.trans hmode)

/-- How a step in the drain moves the mode: at its failure only (R140, R141). -/
theorem drained_mode (s : State) :
    (complete 0x01 (drainAndEcho Config.codec s)).mode = s.mode ∨ (complete 0x01 (drainAndEcho Config.codec s)).ModeMoved := by
  rcases drainAndEcho_spec Config.codec s with ⟨o, es, -, hd⟩ | ⟨frame, u, -, hu, hd | ⟨e, -, hd | hd⟩⟩ <;> rw [hd]
  · exact .inl rfl
  all_goals obtain ⟨-, -, -, hmode, -⟩ := hu.keeps
  · exact .inl hmode
  · exact (complete_raise_mode 0x01 e u).imp_left (·.trans hmode)
  · exact (complete_raise_mode 0x01 e { u with regime := .blocking, sync := .awaitingEcho }).imp_left (·.trans hmode)

/-- How judging the awaited response moves the mode (R83, R185 to R187). -/
theorem judged_mode (x : Exchange) (kind : Byte) (value : Word16) (u : State) :
    (complete x.op (judge x kind value u)).mode = u.mode ∨ (complete x.op (judge x kind value u)).ModeMoved := by
  rcases judge_spec x kind value u with ⟨e, hj, -⟩ | ⟨rfl, hj⟩ | ⟨rfl, hj⟩ | ⟨rfl, hj⟩ | ⟨rfl, hj⟩ <;> rw [hj]
  · exact complete_raise_mode x.op e u
  · exact .inl rfl
  · exact .inr u.modeMoved_rawMode
  · exact .inr u.modeMoved_triggerMode
  · exact .inl rfl

/-- How a step with no reset in it moves the mode (R189). -/
theorem RunOutcome.mode_cases {s t : State} (h : RunOutcome s t) : t.mode = s.mode ∨ t.ModeMoved := by
  cases h with
  | waiting hp hq => exact .inl rfl
  | accepted hp hb r rest op t hq ht => exact ht.mode_cases
  | built command hp opc low high => exact .inl rfl
  | drained hp hw => exact drained_mode s
  | judged x hp u hu kind value =>
    obtain ⟨-, -, -, hmode, -⟩ := hu.ran.keeps
    exact (judged_mode x kind value u).imp_left (·.trans hmode)
  | refused x hp u hu e he =>
    obtain ⟨-, -, -, hmode, -⟩ := hu.ran.keeps
    exact (complete_raise_mode x.op e u).imp_left (·.trans hmode)

/-- Settles O58: each way a step can go on keeps the mode or moves it as the rule's table says. -/
theorem modeTransitions : Obligations.ModeTransitions := by
  intro s t hr hstep hne
  rw [step_of_undisturbed s hr] at hstep
  exact (running_cases s t hstep).mode_cases.resolve_left hne

end Sys2Proof.Machine
end

section
/-! SUPPORT. What each outcome of an operation writes (45_session.md R205; 60_exceptions.md R212, R216 to R219), and the link-free requests
(45_session.md R200 to R202). -/

namespace Sys2Proof.Machine

/-! ### The outcomes -/

/-- FRAME_DISCARDED is the only soft error (R212). -/
theorem ErrorCode.eq_frameDiscarded_of_soft {c : ErrorCode} (h : c.cls = .soft) : c = .frameDiscarded := by
  revert h
  cases c <;> decide

/-- Outside OPEN_AND_SYNC a soft error writes its status and diagnostics only (R217). -/
theorem complete_soft {op : Byte} {e : Raise} (h : e.code.cls = .soft) (hop : op ≠ 0x01) (s : State) :
    complete op (.raise e s) = s.ended op { cls := .soft, code := 0x20 } e.a e.b := by
  have hcode := ErrorCode.eq_frameDiscarded_of_soft h
  have heffect : raiseEffect op e s = s := by simp only [raiseEffect, h, if_neg hop]
  rw [complete_raise, heffect, hcode]
  rfl

/-- A fatal error desynchronizes before it writes its status and diagnostics (R216). -/
theorem complete_fatal {e : Raise} (h : e.code.cls = .linkFatal ∨ e.code.cls = .protocolFatal) (op : Byte) (s : State) :
    complete op (.raise e s) = s.desync.ended op (Status.ofError e.code) e.a e.b := by
  rw [complete_raise, raiseEffect_fatal op e s h]

/-- Settles O35: the table is read off at each code, and each class of outcome has its lemma (`complete_ok`, `complete_fatal`,
`complete_soft`, `complete_usage`). -/
theorem outcomeSetsStatus : Obligations.OutcomeSetsStatus := by
  refine ⟨fun c => by cases c <;> decide, fun op e v s => ⟨complete_ok op (some v) s, complete_ok op none s,
    fun hfatal => complete_fatal hfatal op s, fun hsoft hop => complete_soft hsoft hop s, fun husage => ?_⟩⟩
  rw [complete_usage op e.code e.a e.b s husage, Status.ofError, husage]

/-! ### The link-free requests -/

/-- A reserved row is the request cycle of ILLEGAL (R84, R202). -/
theorem exec_reserved {i : Instr} {op : Byte} (hi : i.requestCode = some op) (ho : op = 0x00 ∨ 0x08 ≤ op) (s : State) :
    exec i s = .next (hostOp op (illegalOp op) s) := by
  rcases exec_request i op s hi with ⟨_, _, -, rfl, -⟩ | ⟨_, _, -, rfl, -⟩ | ⟨_, _, -, rfl, -⟩ | ⟨_, _, -, rfl, -⟩ |
    ⟨_, _, -, rfl, -⟩ | ⟨_, _, -, rfl, -⟩ | ⟨_, _, -, rfl, -⟩ | ⟨-, hexec⟩
  case inr.inr.inr.inr.inr.inr.inr => exact hexec
  all_goals exact absurd ho (by decide)

/-- Settles O16: a reserved row raises ILLEGAL_OP, and `complete_usage` says that a usage error changes nothing else. -/
theorem reservedRequestIsUsageError : Obligations.ReservedRequestIsUsageError := by
  intro i op s hi ho
  rw [exec_reserved hi ho s, hostOp, illegalOp, complete_usage op .illegalOp _ _ _ rfl]
  rfl

/-- Settles O17: bit 0 of a word is its parity. -/
theorem setDebugStoresBitZero : Obligations.SetDebugStoresBitZero := by
  intro a b s
  have hbit : b.getLsbD 0 = decide (b.toNat % 2 = 1) := Nat.testBit_zero b.toNat
  rw [← hbit]
  rfl

/-- Settles O18: the close and its event are those of `closeIfOpen_closed`. -/
theorem closeEndsSession : Obligations.CloseEndsSession := by
  intro a b s
  show Host.Outcome.next (complete 0x07 (.ok none (closeIfOpen s.accepted).closed)) = _
  rw [closeIfOpen_closed, complete_ok]
  rfl

end Sys2Proof.Machine
end

section
/-! SUPPORT. What a step is at each point of the sequencing (10_state.md R21; 45_session.md R203, R204; 43_send_receive.md R162, R170), and
that a busy engine leaves the host's offers at the port (R203). -/

namespace Sys2Proof.Machine

/-! ### The step at each point -/

/-- Without an offer the engine waits (R242). -/
theorem stepRunning_waiting {s : State} (hp : s.point = .idle) (hq : s.requests = []) : stepRunning s = .next s := by
  simp only [stepRunning, hp, stepIdle, hq]

/-- A free port accepts the request offered first (R203, R204). -/
theorem stepRunning_accepting {s : State} {r : Request} {rest : List Request} {i : Instr} (hp : s.point = .idle) (hb : s.busy = false)
    (hq : s.requests = r :: rest) (hd : decode .hreq r.bytes = .ok i) : stepRunning s = exec i (s.takeRequest r rest) := by
  simp only [stepRunning, hp, stepIdle, hq, hb, Bool.false_eq_true, if_false, hd]

/-- The command encoder runs the command it holds (R180). -/
theorem stepRunning_building {s : State} {command : List Byte} {i : Instr} (hp : s.point = .building command)
    (hd : decode .cmd command = .ok i) : stepRunning s = exec i { s with point := .idle } := by
  simp only [stepRunning, hp, stepBuilding, hd]

/-- The response that ReceivePacket returned is decoded and run (R162, R168). -/
theorem stepRunning_received {s t : State} {x : Exchange} {p : List Byte} {i : Instr} (hp : s.point = .awaiting x)
    (hrec : receivePacket Config.codec 5 s = .ok p t) (hd : decode .rsp p = .ok i) : stepRunning s = exec i t := by
  simp only [stepRunning, hp, stepAwaiting, Config.rspLen, hrec, hd]

/-- An error of ReceivePacket ends the awaiting operation (R170). -/
theorem stepRunning_refused {s t : State} {x : Exchange} {e : Raise} (hp : s.point = .awaiting x)
    (hrec : receivePacket Config.codec 5 s = .raise e t) : stepRunning s = .next (complete x.op (.raise e t)) := by
  obtain ⟨hraise, -⟩ := awaitResponse_eq Config.codec hp
  rw [stepRunning_awaiting hp, hraise e t hrec]

/-- Settles O42: where no reset is to come the step is `stepRunning`, which the lemmas above give at each point. -/
theorem stepRunsDecodedInstruction : Obligations.StepRunsDecodedInstruction := by
  intro s i hr
  rw [step_of_undisturbed s hr]
  exact ⟨fun r rest hp hb hq hd => stepRunning_accepting hp hb hq hd, fun command hp hd => stepRunning_building hp hd,
    fun x p t hp hrec hd => stepRunning_received hp hrec hd, fun x e t hp hrec => stepRunning_refused hp hrec⟩

/-! ### The offers at the port -/

/-- A busy engine takes no request off the port, whatever the step goes on with (R203). -/
theorem RunOutcome.requests_of_busy {s t : State} (h : RunOutcome s t) (hb : s.busy = true) : t.requests = s.requests := by
  have hframe (op : Byte) (hop : s.point.op = some op) : t.requests = s.requests := (h.framed hop).requests
  cases h with
  | waiting hp hq => rfl
  | accepted hp hfree r rest op t hq ht => exact absurd (hb.symm.trans hfree) (by decide)
  | built command hp opc low high => rfl
  | drained hp hw => exact hframe 0x01 (congrArg Point.op hp)
  | judged x hp u hu kind value => exact hframe x.op (congrArg Point.op hp)
  | refused x hp u hu e he => exact hframe x.op (congrArg Point.op hp)

/-- A step with a reset to come leaves the offers that the step itself leaves (log entry 6). -/
@[simp] theorem cutAt_requests (k : Nat) (s t : State) : (s.cutAt k t).requests = t.requests := by
  rcases cutAt_spec k s t with ⟨o, h⟩ | ⟨n, h⟩ <;> rw [h]

/-- Settles O44: the step itself takes no request (`RunOutcome.requests_of_busy`), and neither does a reset. -/
theorem busyPortTakesNoRequest : Obligations.BusyPortTakesNoRequest := by
  refine fun s => ⟨fun t hb hstep => ?_, fun hr hp hq => (step_of_undisturbed s hr).trans (stepRunning_waiting hp hq)⟩
  rcases step_cases s t hstep with ⟨-, hrun⟩ | ⟨rest, -, rfl⟩ | ⟨k, rest, u, -, hrun, rfl⟩
  · exact hrun.requests_of_busy hb
  · exact s.applyReset_requests
  · exact (cutAt_requests k s u).trans (hrun.requests_of_busy hb)

end Sys2Proof.Machine
end

section
/-! SUPPORT. An operation records one DONE, as its last event, or is still in its drain (45_session.md R205, R206). -/

namespace Sys2Proof.Machine

/-! ### Events before the end -/

/-- Any event but `DONE`. -/
def Event.NotDone (e : Event) : Prop := ∀ op st a b v, e ≠ .done op st a b v

theorem Event.Reading.notDone {e : Event} (h : e.Reading) : e.NotDone := by
  rcases h with ⟨r, rfl⟩ | ⟨r, rfl⟩ <;> exact nofun

theorem Event.Exchanging.notDone {frame : List Byte} {e : Event} (h : e.Exchanging frame) : e.NotDone := by
  rcases h with ⟨r, rfl⟩ | h
  · exact nofun
  · exact h.notDone

theorem Event.Syncing.notDone {frame : List Byte} {e : Event} (h : e.Syncing frame) : e.NotDone := by
  rcases h with h | rfl | ⟨r, rfl⟩
  · exact h.notDone
  · exact nofun
  · exact nofun

theorem closing_notDone {s : State} {e : Event} (h : e ∈ closing s) : e.NotDone := by
  unfold closing at h
  split at h
  · rw [List.mem_singleton.1 h]
    exact nofun
  · cases h

/-- From `s` to `t` the trace has grown by events without a `DONE`. -/
def Unended (s t : State) : Prop := ∃ events, (∀ e ∈ events, e.NotDone) ∧ t.trace = s.trace ++ events

theorem Unended.of_trace_eq {s t : State} (h : t.trace = s.trace) : Unended s t := ⟨[], nofun, by rw [h, List.append_nil]⟩

theorem Unended.of_closing (s : State) : Unended s { s with trace := s.trace ++ closing s } := ⟨closing s, fun _ => closing_notDone, rfl⟩

/-- A stretch of an operation records no `DONE` where none of its events is one. -/
theorem Ran.unended {P : Event → Prop} {pkt frame : List Byte} {s t : State} (h : Ran P pkt frame s t) (hP : ∀ e, P e → e.NotDone) :
    Unended s t := by
  obtain ⟨es, htr, hes, -⟩ := h.trace
  exact ⟨es, fun e he => hP e (hes e he), htr⟩

/-- Bring-up records no `DONE` before it ends (R131). -/
theorem Opened.unended {C : Codec} {s t : State} (h : Opened C s t) : Unended s t := by
  obtain ⟨l, g, y, n, k, c, pkt, frame, x, p, w, o, pt, es, -, -, hes, rfl⟩ := h
  refine ⟨closing s ++ es, fun e he => (List.mem_append.1 he).elim closing_notDone fun he => ?_, List.append_assoc _ _ _⟩
  rcases hes with ⟨r, rfl, -⟩ | ⟨r, rest, rfl, -, hrest⟩
  · rw [List.mem_singleton.1 he]
    exact nofun
  · rcases List.mem_cons.1 he with rfl | he
    · exact nofun
    rcases List.mem_cons.1 he with rfl | he
    · exact nofun
    · exact (hrest e he).notDone

/-! ### The end of an operation -/

/-- From `s` the operation with this request code has ended in `t`, with one `DONE` as its last event and the port free, or it is an
OPEN_AND_SYNC in its drain, which has recorded none (R205, R206); `busy` says whether the port is then held. -/
def DoneOnce (op : Byte) (busy : Bool) (s t : State) : Prop :=
  ∃ events, (∀ e ∈ events, e.NotDone) ∧
    ((t.busy = false ∧ t.point = .idle ∧ t.trace = s.trace ++ events ++ [.done op t.status t.diagA t.diagB t.result]) ∨
      (op = 0x01 ∧ t.busy = busy ∧ t.point = .draining ∧ t.trace = s.trace ++ events))

/-- What an operation writes before its end, beside the trace, is free (R205). -/
theorem Unended.ended {s u v : State} (h : Unended s u) (hv : v.trace = u.trace) (op : Byte) (busy : Bool) (st : Status) (a b : Word16) :
    DoneOnce op busy s (v.ended op st a b) := by
  obtain ⟨events, hevents, htr⟩ := h
  exact ⟨events, hevents, .inl ⟨rfl, rfl, congrArg (· ++ _) (hv.trans htr)⟩⟩

/-- An operation that raised has ended (R205). -/
theorem Unended.raised {s u : State} (h : Unended s u) (op : Byte) (busy : Bool) (e : Raise) :
    DoneOnce op busy s (complete op (.raise e u)) := by
  rw [complete_raise]
  exact h.ended (raiseEffect_trace op e u) op busy _ _ _

/-- A drain that goes on (R206). -/
theorem Unended.draining {s t : State} (h : Unended s t) (hp : t.point = .draining) : DoneOnce 0x01 t.busy s t := by
  obtain ⟨events, hevents, htr⟩ := h
  exact ⟨events, hevents, .inr ⟨rfl, rfl, hp, htr⟩⟩

/-! ### Requests and later steps -/

/-- However a request leaves the engine, it has ended once or is in its drain (R205, R206). -/
theorem RequestOutcome.doneOnce {s t : State} {op : Byte} (h : RequestOutcome s op t) : DoneOnce op true s t := by
  cases h with
  | draining u hu hd =>
    obtain ⟨-, -, -, hbusy, -⟩ := hu.keeps
    obtain ⟨-, -, -, hpoint, -⟩ := hd
    have hdraining := hu.unended.draining hpoint
    rw [hbusy] at hdraining
    exact hdraining
  | synced u hu hl hr hs => exact hu.unended.ended rfl ..
  | rawMode u p f hs hu => exact (hu.unended fun _ he => he.notDone).ended rfl ..
  | triggerMode u p f low high hs hl hu => exact (hu.unended fun _ he => he.notDone).ended rfl ..
  | reading u value hs hm hu =>
    exact Unended.ended (v := { u with result := value }) (hu.unended fun _ he => he.notDone) rfl ..
  | crc | debug | usage => exact (Unended.of_trace_eq rfl).ended rfl ..
  | closed => exact (Unended.of_closing s).ended rfl ..
  | openFailed e u hc hu => exact hu.unended.ended rfl ..
  | modeFailed op opc low high e u p f ho hs hc hcls hu =>
    rw [← complete_raise]
    exact (hu.unended fun _ he => he.notDone).raised ..
  | readFailed e u hs hm hc hcls hu =>
    rw [← complete_raise]
    exact (hu.unended fun _ he => he.notDone).raised ..

/-- A step in the drain ends the OPEN_AND_SYNC once, or leaves it draining (R137, R206). -/
theorem drained_doneOnce {s : State} (hp : s.point = .draining) : DoneOnce 0x01 s.busy s (complete 0x01 (drainAndEcho Config.codec s)) := by
  rcases drainAndEcho_spec Config.codec s with ⟨o, es, hes, hd⟩ | ⟨frame, t, -, ht, hd⟩
  · rw [hd]
    exact Unended.draining ⟨es, fun e he => Event.Reading.notDone (.inr (hes e he)), rfl⟩ hp
  · have hran : Unended s t := ht.unended fun _ he => he.notDone
    rcases hd with hd | ⟨e, -, hd | hd⟩ <;> rw [hd]
    · exact hran.ended rfl ..
    · exact hran.raised ..
    · exact Unended.raised (u := { t with regime := .blocking, sync := .awaitingEcho }) hran ..

/-- Judging the awaited response ends the operation (R83, R205). -/
theorem judged_doneOnce {s u : State} (h : Unended s u) (x : Exchange) (busy : Bool) (kind : Byte) (value : Word16) :
    DoneOnce x.op busy s (complete x.op (judge x kind value u)) := by
  rcases judge_spec x kind value u with ⟨e, hj, -⟩ | ⟨rfl, hj⟩ | ⟨rfl, hj⟩ | ⟨rfl, hj⟩ | ⟨rfl, hj⟩ <;> rw [hj]
  · exact h.raised ..
  · exact h.ended rfl ..
  · exact h.ended rfl ..
  · exact h.ended rfl ..
  · exact h.ended (v := { u with result := value }) rfl ..

/-- A step that goes on with an operation ends it once or leaves it in its drain (R205, R206). -/
theorem RunOutcome.doneOnce {s t : State} {op : Byte} (h : RunOutcome s t) (hop : s.point.op = some op) : DoneOnce op s.busy s t := by
  cases h with
  | waiting hidle | accepted hidle | built _ hidle => simp [hidle, Point.op] at hop
  | drained hp hw =>
    simp only [hp, Point.op, Option.some.injEq] at hop
    exact hop ▸ drained_doneOnce hp
  | judged x hp u hu kind value =>
    simp only [hp, Point.op, Option.some.injEq] at hop
    exact hop ▸ judged_doneOnce (hu.ran.unended fun _ he => he.notDone) x s.busy kind value
  | refused x hp u hu e he =>
    simp only [hp, Point.op, Option.some.injEq] at hop
    exact hop ▸ (hu.ran.unended fun _ he => he.notDone).raised x.op s.busy e

/-- Settles O36: `RequestOutcome.doneOnce` for the step that accepts the request, `RunOutcome.doneOnce` for a later one. -/
theorem oneDonePerRequest : Obligations.OneDonePerRequest := by
  refine ⟨fun i op s hi => ?_, fun op s t hr hop hstep => ?_⟩
  · obtain ⟨t, hexec, hout⟩ := exec_request_outcome i op s hi
    obtain ⟨events, hevents, hend⟩ := hout.doneOnce
    exact ⟨t, events, hexec, hevents, hend⟩
  · rw [step_of_undisturbed s hr] at hstep
    exact (running_cases s t hstep).doneOnce hop

end Sys2Proof.Machine
end

section
/-! SUPPORT. How an operation ends, said once: with success, with a usage error, or with another of its own errors, raised from a state that has
kept what every operation keeps until then (60_exceptions.md R214, R216 to R218). A response row that no operation awaits ends nothing (R222). -/

namespace Sys2Proof.Machine

/-! ### Up to the raise -/

/-- What an operation has kept where it raises: the two flags and the result, and but for OPEN_AND_SYNC the session. -/
structure KeptToRaise (op : Byte) (s u : State) : Prop where
  rawFlag : u.rawFlag = s.rawFlag
  debug : u.debug = s.debug
  result : u.result = s.result
  session : op ≠ 0x01 → u.link = s.link ∧ u.regime = s.regime ∧ u.sync = s.sync ∧ u.mode = s.mode ∧ u.syncCount = s.syncCount

/-- Accepting the request touches none of it (R204). -/
theorem KeptToRaise.of_accepted {op : Byte} {s u : State} (h : KeptToRaise op s.accepted u) : KeptToRaise op s u :=
  ⟨h.rawFlag, h.debug, h.result, h.session⟩

/-- Bring-up may write the session at any time (R131). -/
theorem KeptToRaise.of_bringUp {s t u : State} (h : KeptToRaise 0x01 s t) (hf : u.rawFlag = t.rawFlag) (hd : u.debug = t.debug)
    (hv : u.result = t.result) : KeptToRaise 0x01 s u :=
  ⟨hf.trans h.rawFlag, hd.trans h.debug, hv.trans h.result, absurd rfl⟩

theorem Ran.keptToRaise {P : Event → Prop} {pkt frame : List Byte} {s u : State} (h : Ran P pkt frame s u) (op : Byte) :
    KeptToRaise op s u := by
  obtain ⟨hl, hr, hy, hm, hf, hd, hc, -, hv, -⟩ := h.keeps
  exact ⟨hf, hd, hv, fun _ => ⟨hl, hr, hy, hm, hc⟩⟩

theorem Opened.keptToRaise {C : Codec} {s u : State} (h : Opened C s u) : KeptToRaise 0x01 s u := by
  obtain ⟨-, hf, hd, -, -, hv, -⟩ := h.keeps
  exact ⟨hf, hd, hv, absurd rfl⟩

/-! ### The end of an operation -/

/-- The ways an operation can end, one constructor for each (R214, R216 to R219). -/
inductive OperationEnd (op : Byte) (s : State) : State → Prop where
  /-- It succeeded. -/
  | success (t : State) (h : t.status = Status.success) : OperationEnd op s t
  /-- It ended with a usage error. -/
  | usage (c : ErrorCode) (a b : Word16) (hc : c ∈ codesOf op) (hu : c.cls = .usage) :
      OperationEnd op s (s.ended op (Status.ofError c) a b)
  /-- It raised another of its own errors. -/
  | raised (e : Raise) (u : State) (hc : e.code ∈ codesOf op) (hcls : e.code.cls ≠ .usage) (hu : KeptToRaise op s u) :
      OperationEnd op s (complete op (.raise e u))

/-- How a request ends in the step that accepts it. -/
theorem RequestOutcome.operationEnd {s t : State} {op : Byte} (h : RequestOutcome s op t) (hp : t.point = .idle) :
    OperationEnd op s t := by
  cases h with
  | draining u hu hd =>
    obtain ⟨-, -, -, hdraining, -⟩ := hd
    rw [hdraining] at hp
    cases hp
  | synced | rawMode | triggerMode | reading | crc | debug | closed => exact .success _ rfl
  | usage op c a b hc hu => exact .usage c a b hc hu
  | openFailed e u hc hu =>
    rw [← raiseEffect_bringUp e u hc, ← complete_raise]
    exact .raised e u hc (cls_ne_usage_of_bringUp hc) hu.keptToRaise.of_accepted
  | modeFailed op opc low high e u p f ho hs hc hcls hu =>
    rw [← complete_raise]
    exact .raised e u hc hcls (hu.keptToRaise op).of_accepted
  | readFailed e u hs hm hc hcls hu =>
    rw [← complete_raise]
    exact .raised e u hc hcls (hu.keptToRaise 0x04).of_accepted

/-- How a step in the drain ends its OPEN_AND_SYNC (R136 to R141). -/
theorem drained_operationEnd {s : State} (hs : s.point = .draining)
    (hp : (complete 0x01 (drainAndEcho Config.codec s)).point = .idle) :
    OperationEnd 0x01 s (complete 0x01 (drainAndEcho Config.codec s)) := by
  rcases drainAndEcho_spec Config.codec s with ⟨o, es, -, hd⟩ | ⟨frame, u, -, hu, hd | ⟨e, he, hd | hd⟩⟩ <;> rw [hd] at hp ⊢
  · rw [show s.point = .idle from hp] at hs
    cases hs
  · exact .success _ rfl
  all_goals have hc := echoCodes_subset he
  · exact .raised e u hc (cls_ne_usage_of_bringUp hc) (hu.keptToRaise 0x01)
  · exact .raised e _ hc (cls_ne_usage_of_bringUp hc) ((hu.keptToRaise 0x01).of_bringUp rfl rfl rfl)

/-- A response of another kind is an error of the operation that awaits it (R214). -/
theorem Exchange.mismatch_mem (x : Exchange) : x.mismatch ∈ codesOf x.op := by cases x <;> decide

/-- Every operation that awaits a response raises the errors of ReceivePacket (R214). -/
theorem Exchange.receiveCodes_subset (x : Exchange) : receiveCodes ⊆ codesOf x.op := by cases x <;> decide

/-- None of these is a usage error (R212). -/
theorem cls_ne_usage_of_receive {c : ErrorCode} (h : c ∈ receiveCodes) : c.cls ≠ .usage :=
  (by decide : ∀ c ∈ receiveCodes, c.cls ≠ .usage) c h

/-- How judging the awaited response ends the operation (R83). -/
theorem judged_operationEnd {s u : State} (x : Exchange) (h : KeptToRaise x.op s u) (kind : Byte) (value : Word16) :
    OperationEnd x.op s (complete x.op (judge x kind value u)) := by
  by_cases hk : kind = x.wanted
  · rw [hk, complete_judge_wanted]
    exact .success _ rfl
  · rw [judge_of_ne_wanted hk]
    exact .raised _ u x.mismatch_mem (x.mismatch_cls ▸ nofun) h

/-- How an operation ends in a step that goes on with it. -/
theorem RunOutcome.operationEnd {s t : State} {op : Byte} (h : RunOutcome s t) (hop : s.point.op = some op) (hp : t.point = .idle) :
    OperationEnd op s t := by
  cases h with
  | waiting hidle | accepted hidle | built _ hidle => simp [hidle, Point.op] at hop
  | drained hs hw =>
    simp only [hs, Point.op, Option.some.injEq] at hop
    exact hop ▸ drained_operationEnd hs hp
  | judged x hs u hu kind value =>
    simp only [hs, Point.op, Option.some.injEq] at hop
    exact hop ▸ judged_operationEnd x (hu.ran.keptToRaise x.op) kind value
  | refused x hs u hu e he =>
    simp only [hs, Point.op, Option.some.injEq] at hop
    exact hop ▸ .raised e u (x.receiveCodes_subset he) (cls_ne_usage_of_receive he) (hu.ran.keptToRaise x.op)

/-- How an operation ends, in the step that accepts it as in a later one. -/
theorem State.EndsIn.operationEnd {op : Byte} {s t : State} (h : s.EndsIn op t) : OperationEnd op s t := by
  obtain ⟨hp, ⟨i, hi, hexec⟩ | ⟨hr, hop, hstep⟩⟩ := h
  · obtain ⟨u, hu, hout⟩ := exec_request_outcome i op s hi
    rw [hexec] at hu
    cases hu
    exact hout.operationEnd hp
  · rw [step_of_undisturbed s hr] at hstep
    exact (running_cases s t hstep).operationEnd hop hp

/-! ### What each class of error says of the state -/

/-- Settles O37: each way an operation can end but success carries one of its own codes. -/
theorem operationsRaiseTheirCodes : Obligations.OperationsRaiseTheirCodes := by
  intro op s t h
  cases h.operationEnd with
  | success t hst => exact .inl hst
  | usage c a b hc hu => exact .inr ⟨c, hc, rfl⟩
  | raised e u hc hcls hu => exact .inr ⟨e.code, hc, rfl⟩

/-- Settles O38: a fatal error was raised from a state that kept the fields named, and `complete_fatal` says what it writes. -/
theorem fatalErrorDesynchronizes : Obligations.FatalErrorDesynchronizes := by
  intro op s t h hfatal
  cases h.operationEnd with
  | success t hst =>
    rw [hst] at hfatal
    exact absurd hfatal (by decide)
  | usage c a b hc hu =>
    rw [State.ended_status, Status.ofError, hu] at hfatal
    exact hfatal.elim nofun nofun
  | raised e u hc hcls hu =>
    rw [complete_fatal hfatal]
    refine ⟨rfl, rfl, hu.rawFlag, hu.debug, hu.result, fun hop => ?_⟩
    obtain ⟨hlink, hregime, -⟩ := hu.session hop
    exact ⟨hlink, hregime⟩

/-- Settles O39: a soft error was raised from a state that kept the fields named; `complete_soft` says what it writes outside OPEN_AND_SYNC,
`complete_bringUp_raise` what inside. -/
theorem softErrorKeepsSynchronization : Obligations.SoftErrorKeepsSynchronization := by
  intro op s t h hsoft
  cases h.operationEnd with
  | success t hst =>
    rw [hst] at hsoft
    cases hsoft
  | usage c a b hc hu =>
    rw [State.ended_status, Status.ofError, hu] at hsoft
    cases hsoft
  | raised e u hc hcls hu =>
    refine ⟨fun hop => ?_, fun hop => ?_⟩
    · rw [complete_soft hsoft hop]
      obtain ⟨hlink, hregime, hsync, hmode, hcount⟩ := hu.session hop
      exact ⟨hsync, hmode, hlink, hregime, hu.rawFlag, hu.debug, hu.result, hcount⟩
    · subst hop
      rw [complete_bringUp_raise u hc]
      exact ⟨rfl, rfl⟩

/-- Settles O40: of the ways an operation can end, only the second has a usage status. -/
theorem usageErrorTouchesNothing : Obligations.UsageErrorTouchesNothing := by
  intro op s t h husage
  cases h.operationEnd with
  | success t hst =>
    rw [hst] at husage
    cases husage
  | usage c a b hc hu => rfl
  | raised e u hc hcls hu => exact absurd husage hcls

/-! ### A response that none awaits -/

/-- Settles O15: every response row is `respond`, which acts at the points `awaiting` alone. -/
theorem unawaitedResponseHasNoEffect : Obligations.UnawaitedResponseHasNoEffect := by
  intro i kind value s hi hne
  rw [exec_response i kind value s hi]
  cases hp : s.point with
  | awaiting x => exact absurd hp (hne x)
  | idle | building | draining => simp only [respond, hp]

end Sys2Proof.Machine
end

section
/-! SUPPORT. Two runs that an observer sees alike, who does not see some of the state: what a mask hides, and that every shared operation takes
states alike under a mask to states alike under it. The masks are those of R24, R27 and R227, and of R10 (00_scope.md). -/

namespace Sys2Proof.Machine

/-! ### Masks -/

/-- What an observer sees of an event, of the two flags and of the regime; of the other fields he sees everything. -/
structure Mask where
  event : Event → Event
  flag : Bool → Bool
  regime : Regime → Regime

/-- The fields that no rule reads are hidden (R24, R27, R227). -/
def Mask.unread : Mask := { event := id, flag := fun _ => false, regime := fun _ => .unconfigured }

/-- The arguments that the delay parameters give to events are hidden (R10). -/
def Mask.delays : Mask := { event := Event.undelayed, flag := id, regime := id }

/-- What is seen of a state. -/
def State.masked (m : Mask) (s : State) : State :=
  { s with debug := m.flag s.debug, rawFlag := m.flag s.rawFlag, regime := m.regime s.regime, trace := s.trace.map m.event }

theorem State.masked_unread : State.masked Mask.unread = State.unseen := by
  funext s
  simp only [State.masked, State.unseen, Mask.unread, List.map_id]

theorem State.masked_delays : State.masked Mask.delays = State.undelayed := rfl

/-- Under a mask that hides them, these parameters differ in their delays alone (R10). -/
structure Mask.HidesDelays (m : Mask) (P Q : Params) : Prop where
  differ : ∃ d1 d2 d3 d4 d5, Q = P.withDelays d1 d2 d3 d4 d5
  drain : ∀ r, m.event (.config Q.drainMin Q.drainTimeoutDs r) = m.event (.config P.drainMin P.drainTimeoutDs r)
  block : ∀ r, m.event (.config Q.blockMin Q.blockTimeoutDs r) = m.event (.config P.blockMin P.blockTimeoutDs r)
  settle : m.event (.sleep Q.settleDs) = m.event (.sleep P.settleDs)

theorem Mask.HidesDelays.refl (m : Mask) (P : Params) : m.HidesDelays P P :=
  ⟨⟨_, _, _, _, _, rfl⟩, fun _ => rfl, fun _ => rfl, rfl⟩

theorem Mask.delays_hidesDelays (P : Params) (d1 d2 d3 d4 d5 : Nat) : Mask.delays.HidesDelays P (P.withDelays d1 d2 d3 d4 d5) :=
  ⟨⟨d1, d2, d3, d4, d5, rfl⟩, fun _ => rfl, fun _ => rfl, rfl⟩

/-! ### Alike under a mask -/

/-- Two states that look the same under a mask. -/
def State.Alike (m : Mask) (s t : State) : Prop := s.masked m = t.masked m

/-- Two parts of an operation that come to the same, in states alike. -/
inductive Res.Alike {α : Type} (m : Mask) : Res α → Res α → Prop where
  | ok (v : α) {s t : State} (h : s.Alike m t) : Res.Alike m (.ok v s) (.ok v t)
  | raise (e : Raise) {s t : State} (h : s.Alike m t) : Res.Alike m (.raise e s) (.raise e t)
  | running {s t : State} (h : s.Alike m t) : Res.Alike m (.running s) (.running t)

/-- Two steps of the same outcome, the next states alike. -/
inductive OutcomesAlike (m : Mask) : Host.Outcome State Fault Refusal → Host.Outcome State Fault Refusal → Prop where
  | next {s t : State} (h : s.Alike m t) : OutcomesAlike m (.next s) (.next t)
  | fault (f : Fault) : OutcomesAlike m (.fault f) (.fault f)
  | refused (r : Refusal) : OutcomesAlike m (.refused r) (.refused r)

theorem OutcomesAlike.mapNext_eq {m : Mask} {o o' : Host.Outcome State Fault Refusal} (h : OutcomesAlike m o o') :
    mapNext (State.masked m) o = mapNext (State.masked m) o' := by
  cases h with
  | next h => exact congrArg Host.Outcome.next h
  | fault f => rfl
  | refused r => rfl

section
variable {m : Mask} {s t : State}

/-- What the mask does not touch is read alike. -/
theorem State.Alike.read {α : Type} (h : s.Alike m t) (p : State → α) (hp : ∀ u : State, p (u.masked m) = p u) : p s = p t := by
  rw [← hp s, ← hp t, show s.masked m = t.masked m from h]

/-- A write is made alike where what is seen of it is a write to what is seen. -/
theorem State.Alike.writeSeen (h : s.Alike m t) (w w' : State → State) (hw : ∀ u : State, (w u).masked m = w' (u.masked m)) :
    (w s).Alike m (w t) := by
  rw [State.Alike, hw, hw, show s.masked m = t.masked m from h]

/-- So is a write that the mask does not touch. -/
theorem State.Alike.write (h : s.Alike m t) (w : State → State) (hw : ∀ u : State, (w u).masked m = w (u.masked m)) :
    (w s).Alike m (w t) := h.writeSeen w w hw

theorem State.Alike.setDebug (h : s.Alike m t) (b : Bool) : State.Alike m { s with debug := b } { t with debug := b } :=
  h.writeSeen (fun u => { u with debug := b }) (fun u => { u with debug := m.flag b }) fun _ => rfl

theorem State.Alike.setRawFlag (h : s.Alike m t) (b : Bool) : State.Alike m { s with rawFlag := b } { t with rawFlag := b } :=
  h.writeSeen (fun u => { u with rawFlag := b }) (fun u => { u with rawFlag := m.flag b }) fun _ => rfl

theorem State.Alike.setRegime (h : s.Alike m t) (g : Regime) : State.Alike m { s with regime := g } { t with regime := g } :=
  h.writeSeen (fun u => { u with regime := g }) (fun u => { u with regime := m.regime g }) fun _ => rfl

/-- Events that the mask does not tell apart are recorded alike (R40). -/
theorem State.Alike.record (h : s.Alike m t) {e e' : Event} (he : m.event e = m.event e') : (s.record e).Alike m (t.record e') := by
  have hrecord (u : State) (e : Event) : (u.record e).masked m = { u.masked m with trace := (u.masked m).trace ++ [m.event e] } := by
    simp only [State.masked, State.record, List.map_append, List.map_cons, List.map_nil]
  rw [State.Alike, hrecord, hrecord, show s.masked m = t.masked m from h, he]

/-- Both runs go on alike after parts that come to the same. -/
theorem Res.Alike.bind {α β : Type} {r r' : Res α} {k k' : α → State → Res β} (h : r.Alike m r')
    (hk : ∀ v s t, s.Alike m t → (k v s).Alike m (k' v t)) : (r.bind k).Alike m (r'.bind k') := by
  cases h with
  | ok v h => exact hk v _ _ h
  | raise e h => exact .raise e h
  | running h => exact .running h

/-! ### The link primitives -/

/-- A primitive that takes an answer and records it takes the same answer in both runs (R116 to R119). -/
theorem State.Alike.answered {α : Type} (h : s.Alike m t) (take : Oracle → α × Oracle) {ev ev' : α → Event}
    (hev : ∀ r, m.event (ev r) = m.event (ev' r)) :
    ∃ r s' t', ((take s.oracle).1, State.record (ev (take s.oracle).1) { s with oracle := (take s.oracle).2 }) = (r, s') ∧
      ((take t.oracle).1, State.record (ev' (take t.oracle).1) { t with oracle := (take t.oracle).2 }) = (r, t') ∧ s'.Alike m t' := by
  have ho : s.oracle = t.oracle := h.read State.oracle fun _ => rfl
  rw [ho]
  exact ⟨_, _, _, rfl, rfl,
    State.Alike.record (h.write (fun u => { u with oracle := (take t.oracle).2 }) fun _ => rfl) (hev _)⟩

theorem linkOpen_alike (h : s.Alike m t) : ∃ r s' t', linkOpen s = (r, s') ∧ linkOpen t = (r, t') ∧ s'.Alike m t' :=
  h.answered Oracle.takeOpen fun _ => rfl

theorem linkConfigure_alike (h : s.Alike m t) {min tds min' tds' : Nat}
    (hev : ∀ r, m.event (.config min tds r) = m.event (.config min' tds' r)) :
    ∃ r s' t', linkConfigure min tds s = (r, s') ∧ linkConfigure min' tds' t = (r, t') ∧ s'.Alike m t' :=
  h.answered Oracle.takeConfigure hev

theorem linkRead_alike (h : s.Alike m t) (n : Nat) : ∃ r s' t', linkRead n s = (r, s') ∧ linkRead n t = (r, t') ∧ s'.Alike m t' :=
  h.answered (Oracle.takeRead n) fun _ => rfl

theorem linkWrite_alike (h : s.Alike m t) (frame : List Byte) :
    ∃ r s' t', linkWrite frame s = (r, s') ∧ linkWrite frame t = (r, t') ∧ s'.Alike m t' :=
  h.answered (Oracle.takeWrite frame.length) fun _ => rfl

/-! ### Sending and receiving -/

variable (C : Codec) (P : Params)

theorem buildCmd_alike (h : s.Alike m t) (opc : Byte) (a b : Word16) : (buildCmd opc a b s P).Alike m (buildCmd opc a b t P) :=
  h.write (fun u => buildCmd opc a b u P) fun _ => rfl

theorem sendCommand_alike (h : s.Alike m t) (pkt : List Byte) : (sendCommand C pkt s P).Alike m (sendCommand C pkt t P) := by
  obtain ⟨r, s', t', hs, ht, h'⟩ := linkWrite_alike
    (h.write (fun u => { u with txFrame := C.enc pkt, written := { u.written with txFrame := true } }) fun _ => rfl) (C.enc pkt)
  simp only [sendCommand, hs, ht]
  cases r with
  | err => exact .raise _ h'
  | ok count =>
    dsimp only
    split
    · exact .ok () h'
    · exact .raise _ h'

theorem resyncLoop_alike (h : s.Alike m t) (n : Nat) : (resyncLoop n s P).Alike m (resyncLoop n t P) := by
  induction n generalizing s t with
  | zero => exact .ok false h
  | succ n ih =>
    obtain ⟨r, s', t', hs, ht, h'⟩ := linkRead_alike h 1
    simp only [resyncLoop, hs, ht]
    cases r with
    | err => exact .raise _ h'
    | ok bytes =>
      have hcounted := h'.write (fun u => { u with resyncCount := u.resyncCount + 1 }) fun _ => rfl
      dsimp only
      split
      · exact .ok true hcounted
      · exact ih hcounted

theorem discardFrame_alike (h : s.Alike m t) : (discardFrame s P).Alike m (discardFrame t P) := by
  refine (resyncLoop_alike P (h.write (fun u => { u with resyncCount := 0 }) fun _ => rfl) P.resyncAttempts).bind fun found s t h => ?_
  have hcount : s.resyncCount = t.resyncCount := h.read State.resyncCount fun _ => rfl
  rw [hcount]
  cases found <;> exact .raise _ h

/-- The check of a packet's CRC, by the unit's result (R167, R168). -/
theorem checkCrc_eq (n : Nat) (s : State) : checkCrc n s P =
    if crcFieldOf n s.rxPkt = crc16 s.rxPkt (n - 2) P then .ok s.rxPkt (crcUnit s.rxPkt (n - 2) s P).2
    else .raise { code := .crcMismatch, a := crcFieldOf n s.rxPkt, b := crc16 s.rxPkt (n - 2) P } (crcUnit s.rxPkt (n - 2) s P).2 := rfl

theorem checkCrc_alike (h : s.Alike m t) (n : Nat) : (checkCrc n s P).Alike m (checkCrc n t P) := by
  have hpkt : s.rxPkt = t.rxPkt := h.read State.rxPkt fun _ => rfl
  have hunit := h.write (fun u => (crcUnit t.rxPkt (n - 2) u P).2) fun _ => rfl
  rw [checkCrc_eq, checkCrc_eq, hpkt]
  split
  · exact .ok _ hunit
  · exact .raise _ hunit

theorem unpackFrame_alike (h : s.Alike m t) (n : Nat) : (unpackFrame C n s P).Alike m (unpackFrame C n t P) := by
  have hdec : C.dec s.rxFrame = C.dec t.rxFrame := h.read (fun u => C.dec u.rxFrame) fun _ => rfl
  simp only [unpackFrame, hdec]
  cases C.dec t.rxFrame with
  | none => exact .raise _ h
  | some d =>
    dsimp only
    split
    · exact .raise _ h
    split
    · exact checkCrc_alike P (h.write (fun u => { u with rxPkt := d, written := { u.written with rxPkt := true } }) fun _ => rfl) n
    · exact .raise _ h

theorem receivePacket_alike (h : s.Alike m t) (n : Nat) : (receivePacket C n s P).Alike m (receivePacket C n t P) := by
  obtain ⟨r, s', t', hs, ht, h'⟩ := linkRead_alike h (n + P.frameOverhead)
  simp only [receivePacket, hs, ht]
  cases r with
  | err => exact .raise _ h'
  | ok bytes =>
    have hread := h'.write (fun u => { u with rxFrame := bytes, written := { u.written with rxFrame := true } }) fun _ => rfl
    dsimp only
    split
    case isFalse => exact .raise _ hread
    split
    · exact unpackFrame_alike C P hread n
    · exact discardFrame_alike P hread

theorem judge_alike (h : s.Alike m t) (x : Exchange) (kind : Byte) (value : Word16) :
    (judge x kind value s P).Alike m (judge x kind value t P) := by
  cases x <;> simp only [judge] <;> split
  · exact .ok none (h.write (fun u => { u with sync := .synced }) fun _ => rfl)
  · exact .raise _ h
  · exact .ok none ((h.setRawFlag true).write (fun u => { u with mode := .rawConfigured }) fun _ => rfl)
  · exact .raise _ h
  · exact .ok none (h.write (fun u => { u with mode := .triggerConfigured }) fun _ => rfl)
  · exact .raise _ h
  · exact .ok (some value) h
  · exact .raise _ h

theorem awaitResponse_alike (h : s.Alike m t) (x : Exchange) : (awaitResponse C x s P).Alike m (awaitResponse C x t P) :=
  (receivePacket_alike C P (h.write (fun u => { u with point := .awaiting x }) fun _ => rfl) P.rspLen).bind
    fun p _ _ h => judge_alike P h x (kindOf p) (valueOf p)

theorem exchange_alike (h : s.Alike m t) (x : Exchange) : (exchange C x s P).Alike m (exchange C x t P) := by
  have hpkt : s.txPkt = t.txPkt := h.read State.txPkt fun _ => rfl
  rw [exchange, exchange, hpkt]
  exact (sendCommand_alike C P h t.txPkt).bind fun _ _ _ h => awaitResponse_alike C P h x

/-! ### Completion -/

theorem finish_alike (h : s.Alike m t) (op : Byte) (st : Status) (a b v : Word16) :
    (finish op st a b v s).Alike m (finish op st a b v t) :=
  (h.record (rfl : m.event (.done op st a b v) = _)).write (fun u => { u with
    status := st, diagA := a, diagB := b, result := v, written := Written.nothing, busy := false, point := .idle, reqData := [] })
    fun _ => rfl

theorem raiseEffect_alike (h : s.Alike m t) (op : Byte) (e : Raise) : (raiseEffect op e s).Alike m (raiseEffect op e t) := by
  have hdesync : s.desync.Alike m t.desync := h.write State.desync fun _ => rfl
  unfold raiseEffect
  cases e.code.cls with
  | linkFatal | protocolFatal => exact hdesync
  | soft =>
    dsimp only
    split
    · exact hdesync
    · exact h
  | usage | none => exact h

theorem complete_alike {r r' : OpRes} (h : r.Alike m r') (op : Byte) : (complete op r).Alike m (complete op r') := by
  cases h with
  | @ok v s t h =>
    have hresult : s.result = t.result := h.read State.result fun _ => rfl
    simp only [complete, hresult]
    exact finish_alike h op Status.success 0 0 _
  | @raise e s t h =>
    have hresult : s.result = t.result := h.read State.result fun _ => rfl
    simp only [complete, hresult]
    exact finish_alike (raiseEffect_alike h op e) op (Status.ofError e.code) e.a e.b _
  | running h => exact h

/-- The request cycle of bodies that run alike (R204). -/
theorem hostOp_alike {body body' : State → OpRes} (hbody : ∀ s t, s.Alike m t → (body s).Alike m (body' t)) (h : s.Alike m t) (op : Byte) :
    (hostOp op body s).Alike m (hostOp op body' t) :=
  complete_alike (hbody _ _ (h.write State.accepted fun _ => rfl)) op

theorem respond_alike (h : s.Alike m t) (kind : Byte) (value : Word16) : (respond kind value s P).Alike m (respond kind value t P) := by
  have hpoint : s.point = t.point := h.read State.point fun _ => rfl
  unfold respond
  rw [hpoint]
  cases t.point with
  | awaiting x => exact complete_alike (judge_alike P h x kind value) x.op
  | idle | building | draining => exact h

end

end Sys2Proof.Machine
end

section
/-! SUPPORT. Requests and steps from states alike under a mask end alike under it: no outcome depends on the debug flag, the raw flag or the
regime (10_state.md R24, R27; 60_exceptions.md R227), and none on the delay parameters but in the arguments of events (00_scope.md R10). -/

namespace Sys2Proof.Machine

section
variable {m : Mask} {s t : State} (C : Codec)

/-! ### The three commands and the link-free requests -/

/-- A request out of sequence says the same in both runs (R213). -/
theorem sequenceError_alike (h : s.Alike m t) : (sequenceError s).Alike m (sequenceError t) := by
  have hsync : s.sync = t.sync := h.read State.sync fun _ => rfl
  have hmode : s.mode = t.mode := h.read State.mode fun _ => rfl
  rw [sequenceError, sequenceError, hsync, hmode]
  exact .raise _ h

variable (P : Params)

theorem setRawModeOp_alike (h : s.Alike m t) : (setRawModeOp C s P).Alike m (setRawModeOp C t P) := by
  have hsync : s.sync = t.sync := h.read State.sync fun _ => rfl
  rw [setRawModeOp, setRawModeOp, hsync]
  split
  · exact exchange_alike C P (buildCmd_alike P h P.opcRaw 0 0) .rawMode
  · exact sequenceError_alike h

theorem setTriggerModeOp_alike (h : s.Alike m t) (low high : Word16) :
    (setTriggerModeOp C low high s P).Alike m (setTriggerModeOp C low high t P) := by
  have hsync : s.sync = t.sync := h.read State.sync fun _ => rfl
  rw [setTriggerModeOp, setTriggerModeOp, hsync]
  split
  case isFalse => exact sequenceError_alike h
  split
  · exact .raise _ h
  · exact exchange_alike C P (buildCmd_alike P h P.opcTrigger low high) .triggerMode

theorem readSensorValueOp_alike (h : s.Alike m t) : (readSensorValueOp C s P).Alike m (readSensorValueOp C t P) := by
  have hsync : s.sync = t.sync := h.read State.sync fun _ => rfl
  have hmode : s.mode = t.mode := h.read State.mode fun _ => rfl
  rw [readSensorValueOp, readSensorValueOp, hsync, hmode]
  split
  · exact awaitResponse_alike C P h .reading
  · exact sequenceError_alike h

theorem crc16Op_alike (h : s.Alike m t) (length : Word16) : (crc16Op length s P).Alike m (crc16Op length t P) := by
  have hdata : dataBytes length.toNat s = dataBytes length.toNat t := h.read (dataBytes length.toNat) fun _ => rfl
  have hdrew : (s.drewData length.toNat).Alike m (t.drewData length.toNat) :=
    h.write (State.drewData length.toNat) fun _ => apply_ite (State.masked m) _ _ _
  rw [crc16Op, crc16Op, hdata]
  exact .ok _ (hdrew.write (fun u => (crcUnit (dataBytes length.toNat t) length.toNat u P).2) fun _ => rfl)

/-- A new session starts alike (R131, R201). -/
theorem closeIfOpen_closed_alike (h : s.Alike m t) : (closeIfOpen s).closed.Alike m (closeIfOpen t).closed := by
  have hclose : (closeIfOpen s).Alike m (closeIfOpen t) := by
    have hlink : s.link = t.link := h.read State.link fun _ => rfl
    rw [closeIfOpen, closeIfOpen, hlink]
    split
    · exact h.record rfl
    · exact h
  exact (hclose.setRegime .unconfigured).write (fun u => { u with link := .closed, sync := .unsynced, mode := .idle }) fun _ => rfl

/-! ### OPEN_AND_SYNC -/

section
variable (d1 d2 d3 d4 d5 : Nat)

/-- No loop of the synchronizer reads a delay. -/
theorem resyncLoop_withDelays (n : Nat) (s : State) : resyncLoop n s (P.withDelays d1 d2 d3 d4 d5) = resyncLoop n s P := by
  induction n generalizing s with
  | zero => rfl
  | succ n ih =>
    simp only [resyncLoop, ih]
    rfl

theorem receivePacket_withDelays (n : Nat) (s : State) :
    receivePacket C n s (P.withDelays d1 d2 d3 d4 d5) = receivePacket C n s P := by
  have hdiscard (t : State) : discardFrame t (P.withDelays d1 d2 d3 d4 d5) = discardFrame t P :=
    congrArg (Res.bind · _) (resyncLoop_withDelays P d1 d2 d3 d4 d5 P.resyncAttempts { t with resyncCount := 0 })
  simp only [receivePacket, hdiscard]
  rfl

theorem exchange_withDelays (x : Exchange) (s : State) : exchange C x s (P.withDelays d1 d2 d3 d4 d5) = exchange C x s P := by
  simp only [exchange, awaitResponse, receivePacket_withDelays]
  rfl

theorem probeLoop_withDelays (pkt : List Byte) (n : Nat) (s : State) :
    probeLoop C pkt n s (P.withDelays d1 d2 d3 d4 d5) = probeLoop C pkt n s P := by
  induction n generalizing s with
  | zero => rfl
  | succ n ih =>
    simp only [probeLoop, ih]
    rfl

theorem drainLoop_withDelays (n : Nat) (s : State) : drainLoop n s (P.withDelays d1 d2 d3 d4 d5) = drainLoop n s P := by
  induction n generalizing s with
  | zero => rfl
  | succ n ih =>
    simp only [drainLoop, ih]
    rfl

end

theorem probeLoop_alike (h : s.Alike m t) (pkt : List Byte) (n : Nat) : (probeLoop C pkt n s P).Alike m (probeLoop C pkt n t P) := by
  induction n generalizing s t with
  | zero =>
    have hcount : s.syncCount = t.syncCount := h.read State.syncCount fun _ => rfl
    rw [probeLoop, probeLoop, hcount]
    exact .raise _ h
  | succ n ih =>
    refine (sendCommand_alike C P h pkt).bind fun _ s t h => ?_
    obtain ⟨r, s', t', hs, ht, h'⟩ := linkRead_alike (h.write (fun u => { u with syncCount := u.syncCount + 1 }) fun _ => rfl) 1
    simp only [hs, ht]
    cases r with
    | err => exact .raise _ h'
    | ok bytes =>
      dsimp only
      split
      · exact .ok () h'
      · exact ih h'

theorem drainLoop_alike (h : s.Alike m t) (n : Nat) : (drainLoop n s P).Alike m (drainLoop n t P) := by
  induction n generalizing s t with
  | zero => exact .running h
  | succ n ih =>
    obtain ⟨r, s', t', hs, ht, h'⟩ := linkRead_alike h P.drainChunk
    simp only [drainLoop, hs, ht]
    cases r with
    | err => exact .raise _ h'
    | ok bytes =>
      dsimp only
      split
      · exact .ok () h'
      · exact ih h'

theorem drain_alike (h : s.Alike m t) : (drain s P).Alike m (drain t P) := by
  have hreads : s.oracle.reads = t.oracle.reads := h.read (fun u => u.oracle.reads) fun _ => rfl
  rw [drain, drain, hreads]
  exact drainLoop_alike P h _

variable {P} {Q : Params}

theorem openLink_alike (hQ : m.HidesDelays P Q) (h : s.Alike m t) : (openLink s Q).Alike m (openLink t P) := by
  obtain ⟨r, s', t', hs, ht, h'⟩ := linkOpen_alike (closeIfOpen_closed_alike h)
  simp only [openLink, hs, ht]
  cases r with
  | err e => exact .raise _ h'
  | ok =>
    obtain ⟨c, s'', t'', hs', ht', h''⟩ := linkConfigure_alike (h'.write (fun u => { u with link := .opened }) fun _ => rfl) hQ.drain
    simp only [hs', ht']
    cases c with
    | err => exact .raise _ h''
    | ok => exact .ok () ((h''.setRegime .drain).write (fun u => { u with sync := .seekingHeader }) fun _ => rfl)

theorem echo_alike (hQ : m.HidesDelays P Q) (h : s.Alike m t) : (echo C s Q).Alike m (echo C t P) := by
  obtain ⟨c, s', t', hs, ht, h'⟩ := linkConfigure_alike (h.record hQ.settle) hQ.block
  simp only [echo, linkSleep, hs, ht]
  cases c with
  | err => exact .raise _ h'
  | ok =>
    obtain ⟨d1, d2, d3, d4, d5, rfl⟩ := hQ.differ
    simp only [exchange_withDelays]
    exact exchange_alike C P ((h'.setRegime .blocking).write (fun u => { u with sync := .awaitingEcho }) fun _ => rfl) .echo

theorem drainAndEcho_alike (hQ : m.HidesDelays P Q) (h : s.Alike m t) : (drainAndEcho C s Q).Alike m (drainAndEcho C t P) := by
  have hdrain : (drain s Q).Alike m (drain t P) := by
    obtain ⟨d1, d2, d3, d4, d5, rfl⟩ := hQ.differ
    rw [drain, drainLoop_withDelays]
    exact drain_alike P h
  exact hdrain.bind fun _ _ _ h => echo_alike C hQ h

theorem openAndProbe_alike (hQ : m.HidesDelays P Q) (h : s.Alike m t) : (openAndProbe C s Q).Alike m (openAndProbe C t P) := by
  refine (openLink_alike hQ h).bind fun _ s t h => ?_
  have hbuilt : (buildSync s P).Alike m (buildSync t P) := buildCmd_alike P h P.opcSync 0 0
  have hprobe : (probe C (buildSync s Q).txPkt (buildSync s Q) Q).Alike m (probe C (buildSync t P).txPkt (buildSync t P) P) := by
    obtain ⟨d1, d2, d3, d4, d5, rfl⟩ := hQ.differ
    rw [probe, probeLoop_withDelays]
    exact probeLoop_alike C P (hbuilt.write (fun u => { u with syncCount := 0 }) fun _ => rfl) _ P.syncAttempts
  exact hprobe.bind fun _ _ _ h => .ok () (h.write (fun u => { u with sync := .drainingGarbage, point := .draining }) fun _ => rfl)

theorem openAndSyncOp_alike (hQ : m.HidesDelays P Q) (h : s.Alike m t) : (openAndSyncOp C s Q).Alike m (openAndSyncOp C t P) :=
  (openAndProbe_alike C hQ h).bind fun _ _ _ h => drainAndEcho_alike C hQ h

theorem execOpenAndSync_alike (hQ : m.HidesDelays P Q) (h : s.Alike m t) : OutcomesAlike m (execOpenAndSync s Q) (execOpenAndSync t P) :=
  .next (hostOp_alike (fun _ _ h => openAndSyncOp_alike Config.codec hQ h) h Config.opOpenAndSync)

/-! ### Instructions and steps -/

/-- Every instruction executes alike. -/
theorem exec_alike (h : s.Alike m t) (i : Instr) : OutcomesAlike m (exec i s) (exec i t) := by
  have hreserved (op : Byte) : (reservedOp op s).Alike m (reservedOp op t) := hostOp_alike (fun _ _ h => .raise _ h) h op
  cases i with
  | cmdSync | cmdRaw | cmdTrigger => exact .next (buildCmd_alike Config.params h ..)
  | rspSensorValue | rspSyncOk | rspRawAck | rspTriggerAck | rspUnknownCommand | rspCrcMismatch | rspWrongSize | rspUndefinedKind =>
    exact .next (respond_alike Config.params h ..)
  | openAndSync a b => exact execOpenAndSync_alike (.refl m Config.params) h
  | setRawMode a b => exact .next (hostOp_alike (fun _ _ h => setRawModeOp_alike Config.codec Config.params h) h _)
  | setTriggerMode low high =>
    exact .next (hostOp_alike (fun _ _ h => setTriggerModeOp_alike Config.codec Config.params h low high) h _)
  | readSensorValue a b => exact .next (hostOp_alike (fun _ _ h => readSensorValueOp_alike Config.codec Config.params h) h _)
  | crc16 length b => exact .next (hostOp_alike (fun _ _ h => crc16Op_alike Config.params h length) h _)
  | setDebug a b => exact .next (hostOp_alike (fun _ _ h => .ok none (h.setDebug (b.getLsbD 0))) h _)
  | close a b => exact .next (hostOp_alike (fun _ _ h => .ok none (closeIfOpen_closed_alike h)) h _)
  | reserved00 | reserved08 | reserved10 | reserved20 | reserved40 | reserved80 => exact .next (hreserved _)

theorem stepIdle_alike (h : s.Alike m t) : OutcomesAlike m (stepIdle s) (stepIdle t) := by
  have hrequests : s.requests = t.requests := h.read State.requests fun _ => rfl
  have hbusy : s.busy = t.busy := h.read State.busy fun _ => rfl
  rw [stepIdle, stepIdle, hrequests, hbusy]
  cases t.requests with
  | nil => exact .next h
  | cons r rest =>
    dsimp only
    split
    · exact .next h
    · split
      · exact exec_alike (h.write (State.takeRequest r rest) fun _ => rfl) _
      · exact .refused _

/-- A step with no reset in it goes on alike from each point. -/
theorem stepRunning_alike (h : s.Alike m t) : OutcomesAlike m (stepRunning s) (stepRunning t) := by
  have hpoint : s.point = t.point := h.read State.point fun _ => rfl
  cases hp : t.point with
  | idle =>
    simp only [stepRunning, hpoint, hp]
    exact stepIdle_alike h
  | building command =>
    simp only [stepRunning, hpoint, hp, stepBuilding]
    split
    · exact exec_alike (h.write (fun u => { u with point := .idle }) fun _ => rfl) _
    · exact .refused _
  | draining =>
    have hwritten : s.written.txPkt = t.written.txPkt := h.read (fun u => u.written.txPkt) fun _ => rfl
    simp only [stepRunning, hpoint, hp, stepDraining, hwritten]
    split
    · exact .next (complete_alike (drainAndEcho_alike Config.codec (.refl m Config.params) h) _)
    · exact .fault _
  | awaiting x =>
    rw [stepRunning_awaiting hp, stepRunning_awaiting (hpoint.trans hp)]
    exact .next (complete_alike (awaitResponse_alike Config.codec Config.params h x) x.op)

end

/-! ### The unread fields -/

/-- Where the whole trace is seen, a reset to come cuts off both steps at the same event (R240). -/
theorem cutAt_alike {s t u v : State} (h : s.Alike .unread t) (h' : u.Alike .unread v) (k : Nat) :
    (s.cutAt k u).Alike .unread (t.cutAt k v) := by
  have htrace {s t : State} (h : s.Alike .unread t) : s.trace = t.trace := h.read State.trace fun u => List.map_id u.trace
  have horacle : s.oracle = t.oracle := h.read State.oracle fun _ => rfl
  have hrecorded : s.recorded u = t.recorded v := by rw [State.recorded, State.recorded, htrace h, htrace h']
  rw [State.cutAt, State.cutAt, hrecorded, horacle]
  split
  · exact h'.write (fun w => { w with oracle := ((t.recorded v).take k).foldl Oracle.after t.oracle }.applyReset) fun _ => rfl
  · exact h'.write (fun w => { w with resets := (k - (t.recorded v).length) :: w.resets.tail }) fun _ => rfl

theorem cutOutcome_alike {s t : State} (h : s.Alike .unread t) {o o' : Host.Outcome State Fault Refusal} (ho : OutcomesAlike .unread o o')
    (k : Nat) : OutcomesAlike .unread (cutOutcome k s o) (cutOutcome k t o') := by
  cases ho with
  | next h' => exact .next (cutAt_alike h h' k)
  | fault f => exact .fault f
  | refused r => exact .refused r

theorem step_alike {s t : State} (h : s.Alike .unread t) : OutcomesAlike .unread (step s) (step t) := by
  have hresets : s.resets = t.resets := h.read State.resets fun _ => rfl
  have hrun := stepRunning_alike h
  match hr : t.resets with
  | [] =>
    rw [step_of_undisturbed t hr, step_of_undisturbed s (hresets.trans hr)]
    exact hrun
  | 0 :: rest =>
    rw [step_of_reset_now hr, step_of_reset_now (hresets.trans hr)]
    exact .next (h.write State.applyReset fun _ => rfl)
  | (k + 1) :: rest =>
    rw [step_of_reset_later hr, step_of_reset_later (hresets.trans hr)]
    exact cutOutcome_alike h hrun k

/-- Settles O55: under the mask of the unread fields every step runs alike (`step_alike`), and under the mask of the delays OPEN_AND_SYNC runs
alike at two choices of them (`execOpenAndSync_alike`). -/
theorem unreadFieldsDoNotMatter : Obligations.UnreadFieldsDoNotMatter := by
  refine ⟨fun s t h => ?_, fun P d1 d2 d3 d4 d5 s => ?_⟩
  · rw [← State.masked_unread] at h ⊢
    exact (step_alike h).mapNext_eq
  · rw [← State.masked_delays]
    exact (execOpenAndSync_alike (Mask.delays_hidesDelays P d1 d2 d3 d4 d5) (rfl : s.Alike .delays s)).mapNext_eq

end Sys2Proof.Machine
end

section
/-! SUPPORT. No operation reads or writes the resets to come (70_reset_and_hazards.md R240): from a state with other resets to come, each
one does the same and keeps those. -/

namespace Sys2Proof.Machine

/-! ### Other resets to come -/

/-- The state with other resets to come. -/
def State.withResets (later : List Nat) (s : State) : State := { s with resets := later }

/-- The part of an operation with its state changed. -/
def Res.mapState {α : Type} (f : State → State) : Res α → Res α
  | .ok v s => .ok v (f s)
  | .raise e s => .raise e (f s)
  | .running s => .running (f s)

/-- The first part of an operation may have its state changed before the rest or after it, where the rest runs alike. -/
theorem Res.bind_mapState {α β : Type} {f : State → State} {r r' : Res α} {k k' : α → State → Res β} (hr : r' = r.mapState f)
    (hk : ∀ v s, k' v (f s) = (k v s).mapState f) : r'.bind k' = (r.bind k).mapState f := by
  subst hr
  cases r with
  | ok v s => exact hk v s
  | raise e s => rfl
  | running s => rfl

section
variable (later : List Nat)

theorem linkOpen_withResets (s : State) :
    linkOpen (s.withResets later) = ((linkOpen s).1, (linkOpen s).2.withResets later) := rfl

theorem linkConfigure_withResets (min tds : Nat) (s : State) :
    linkConfigure min tds (s.withResets later) = ((linkConfigure min tds s).1, (linkConfigure min tds s).2.withResets later) := rfl

theorem linkRead_withResets (n : Nat) (s : State) :
    linkRead n (s.withResets later) = ((linkRead n s).1, (linkRead n s).2.withResets later) := rfl

theorem linkWrite_withResets (frame : List Byte) (s : State) :
    linkWrite frame (s.withResets later) = ((linkWrite frame s).1, (linkWrite frame s).2.withResets later) := rfl

/-! ### Sending and receiving -/

variable (C : Codec) (P : Params)

theorem sendCommand_withResets (pkt : List Byte) (s : State) :
    sendCommand C pkt (s.withResets later) P = (sendCommand C pkt s P).mapState (State.withResets later) := by
  have hwrite : linkWrite (C.enc pkt) { s.withResets later with
      txFrame := C.enc pkt, written := { (s.withResets later).written with txFrame := true } } = _ :=
    linkWrite_withResets later (C.enc pkt) { s with txFrame := C.enc pkt, written := { s.written with txFrame := true } }
  simp only [sendCommand, hwrite]
  split
  · rfl
  · split <;> rfl

theorem resyncLoop_withResets (n : Nat) (s : State) :
    resyncLoop n (s.withResets later) P = (resyncLoop n s P).mapState (State.withResets later) := by
  induction n generalizing s with
  | zero => rfl
  | succ n ih =>
    simp only [resyncLoop, linkRead_withResets]
    generalize linkRead 1 s = answer
    obtain ⟨r, t⟩ := answer
    cases r with
    | err => rfl
    | ok bytes =>
      dsimp only
      split
      · rfl
      · exact ih { t with resyncCount := t.resyncCount + 1 }

theorem discardFrame_withResets (s : State) :
    discardFrame (s.withResets later) P = (discardFrame s P).mapState (State.withResets later) :=
  Res.bind_mapState (resyncLoop_withResets later P P.resyncAttempts { s with resyncCount := 0 }) fun found _ => by cases found <;> rfl

theorem checkCrc_withResets (n : Nat) (s : State) :
    checkCrc n (s.withResets later) P = (checkCrc n s P).mapState (State.withResets later) := by
  rw [checkCrc_eq, checkCrc_eq, apply_ite (Res.mapState (State.withResets later))]
  rfl

theorem unpackFrame_withResets (n : Nat) (s : State) :
    unpackFrame C n (s.withResets later) P = (unpackFrame C n s P).mapState (State.withResets later) := by
  have hdec : C.dec (s.withResets later).rxFrame = C.dec s.rxFrame := rfl
  simp only [unpackFrame, hdec]
  cases C.dec s.rxFrame with
  | none => rfl
  | some d =>
    dsimp only
    split
    · rfl
    split
    · exact checkCrc_withResets later P n { s with rxPkt := d, written := { s.written with rxPkt := true } }
    · rfl

theorem receivePacket_withResets (n : Nat) (s : State) :
    receivePacket C n (s.withResets later) P = (receivePacket C n s P).mapState (State.withResets later) := by
  simp only [receivePacket, linkRead_withResets]
  generalize linkRead (n + P.frameOverhead) s = answer
  obtain ⟨r, t⟩ := answer
  cases r with
  | err => rfl
  | ok bytes =>
    dsimp only
    split
    case isFalse => rfl
    split
    · exact unpackFrame_withResets later C P n { t with rxFrame := bytes, written := { t.written with rxFrame := true } }
    · exact discardFrame_withResets later P { t with rxFrame := bytes, written := { t.written with rxFrame := true } }

theorem judge_withResets (x : Exchange) (kind : Byte) (value : Word16) (s : State) :
    judge x kind value (s.withResets later) P = (judge x kind value s P).mapState (State.withResets later) := by
  cases x <;> simp only [judge] <;> split <;> rfl

theorem awaitResponse_withResets (x : Exchange) (s : State) :
    awaitResponse C x (s.withResets later) P = (awaitResponse C x s P).mapState (State.withResets later) :=
  Res.bind_mapState (receivePacket_withResets later C P P.rspLen { s with point := .awaiting x })
    fun p t => judge_withResets later P x (kindOf p) (valueOf p) t

theorem exchange_withResets (x : Exchange) (s : State) :
    exchange C x (s.withResets later) P = (exchange C x s P).mapState (State.withResets later) :=
  Res.bind_mapState (sendCommand_withResets later C P s.txPkt s) fun _ t => awaitResponse_withResets later C P x t

/-! ### The requests' bodies -/

theorem setRawModeOp_withResets (s : State) :
    setRawModeOp C (s.withResets later) P = (setRawModeOp C s P).mapState (State.withResets later) := by
  rw [setRawModeOp, setRawModeOp, apply_ite (Res.mapState (State.withResets later)), ← exchange_withResets]
  rfl

theorem setTriggerModeOp_withResets (low high : Word16) (s : State) :
    setTriggerModeOp C low high (s.withResets later) P = (setTriggerModeOp C low high s P).mapState (State.withResets later) := by
  rw [setTriggerModeOp, setTriggerModeOp, apply_ite (Res.mapState (State.withResets later)), apply_ite (Res.mapState (State.withResets later)),
    ← exchange_withResets]
  rfl

theorem readSensorValueOp_withResets (s : State) :
    readSensorValueOp C (s.withResets later) P = (readSensorValueOp C s P).mapState (State.withResets later) := by
  rw [readSensorValueOp, readSensorValueOp, apply_ite (Res.mapState (State.withResets later)), ← awaitResponse_withResets]
  rfl

theorem crc16Op_withResets (length : Word16) (s : State) :
    crc16Op length (s.withResets later) P = (crc16Op length s P).mapState (State.withResets later) := by
  have hdrew : (s.withResets later).drewData length.toNat = (s.drewData length.toNat).withResets later := by
    rw [State.drewData, State.drewData, apply_ite (State.withResets later)]
    rfl
  rw [crc16Op, hdrew]
  rfl

theorem closeIfOpen_withResets (s : State) : closeIfOpen (s.withResets later) = (closeIfOpen s).withResets later := by
  rw [closeIfOpen, closeIfOpen, apply_ite (State.withResets later)]
  rfl

theorem closeOp_withResets (s : State) : closeOp (s.withResets later) = (closeOp s).mapState (State.withResets later) := by
  rw [closeOp, closeIfOpen_withResets]
  rfl

/-! ### OPEN_AND_SYNC -/

theorem openLink_withResets (s : State) :
    openLink (s.withResets later) P = (openLink s P).mapState (State.withResets later) := by
  have hclosed : (closeIfOpen (s.withResets later)).closed = (closeIfOpen s).closed.withResets later :=
    congrArg State.closed (closeIfOpen_withResets later s)
  simp only [openLink, hclosed, linkOpen_withResets]
  generalize linkOpen (closeIfOpen s).closed = answer
  obtain ⟨r, t⟩ := answer
  cases r with
  | err e => rfl
  | ok =>
    have hconfigure : linkConfigure P.drainMin P.drainTimeoutDs { t.withResets later with link := .opened } = _ :=
      linkConfigure_withResets later P.drainMin P.drainTimeoutDs { t with link := .opened }
    simp only [hconfigure]
    split <;> rfl

theorem probeLoop_withResets (pkt : List Byte) (n : Nat) (s : State) :
    probeLoop C pkt n (s.withResets later) P = (probeLoop C pkt n s P).mapState (State.withResets later) := by
  induction n generalizing s with
  | zero => rfl
  | succ n ih =>
    refine Res.bind_mapState (sendCommand_withResets later C P pkt s) fun _ t => ?_
    have hread : linkRead 1 { t.withResets later with syncCount := (t.withResets later).syncCount + 1 } = _ :=
      linkRead_withResets later 1 { t with syncCount := t.syncCount + 1 }
    simp only [hread]
    generalize linkRead 1 { t with syncCount := t.syncCount + 1 } = answer
    obtain ⟨r, u⟩ := answer
    cases r with
    | err => rfl
    | ok bytes =>
      dsimp only
      split
      · rfl
      · exact ih u

theorem drainLoop_withResets (n : Nat) (s : State) :
    drainLoop n (s.withResets later) P = (drainLoop n s P).mapState (State.withResets later) := by
  induction n generalizing s with
  | zero => rfl
  | succ n ih =>
    simp only [drainLoop, linkRead_withResets]
    generalize linkRead P.drainChunk s = answer
    obtain ⟨r, t⟩ := answer
    cases r with
    | err => rfl
    | ok bytes =>
      dsimp only
      split
      · rfl
      · exact ih t

theorem echo_withResets (s : State) :
    echo C (s.withResets later) P = (echo C s P).mapState (State.withResets later) := by
  have hconfigure : linkConfigure P.blockMin P.blockTimeoutDs (linkSleep P.settleDs (s.withResets later)) = _ :=
    linkConfigure_withResets later P.blockMin P.blockTimeoutDs (linkSleep P.settleDs s)
  simp only [echo, hconfigure]
  generalize linkConfigure P.blockMin P.blockTimeoutDs (linkSleep P.settleDs s) = answer
  obtain ⟨r, t⟩ := answer
  cases r with
  | err => rfl
  | ok => exact exchange_withResets later C P .echo { t with regime := .blocking, sync := .awaitingEcho }

theorem drainAndEcho_withResets (s : State) :
    drainAndEcho C (s.withResets later) P = (drainAndEcho C s P).mapState (State.withResets later) :=
  Res.bind_mapState (drainLoop_withResets later P (max 1 s.oracle.reads.length) s) fun _ t => echo_withResets later C P t

theorem openAndProbe_withResets (s : State) :
    openAndProbe C (s.withResets later) P = (openAndProbe C s P).mapState (State.withResets later) :=
  Res.bind_mapState (openLink_withResets later P s) fun _ t =>
    Res.bind_mapState (probeLoop_withResets later C P (buildSync t P).txPkt P.syncAttempts { buildSync t P with syncCount := 0 })
      fun _ _ => rfl

theorem openAndSyncOp_withResets (s : State) :
    openAndSyncOp C (s.withResets later) P = (openAndSyncOp C s P).mapState (State.withResets later) :=
  Res.bind_mapState (openAndProbe_withResets later C P s) fun _ t => drainAndEcho_withResets later C P t

/-! ### Completion, instructions and steps -/

theorem raiseEffect_withResets (op : Byte) (e : Raise) (s : State) :
    raiseEffect op e (s.withResets later) = (raiseEffect op e s).withResets later := by
  unfold raiseEffect
  cases e.code.cls with
  | soft =>
    dsimp only
    split <;> rfl
  | linkFatal | protocolFatal | usage | none => rfl

theorem complete_withResets (op : Byte) (r : OpRes) :
    complete op (r.mapState (State.withResets later)) = (complete op r).withResets later := by
  cases r with
  | ok v s => rfl
  | raise e s =>
    simp only [Res.mapState, complete, raiseEffect_withResets]
    rfl
  | running s => rfl

/-- The request cycle of a body that is indifferent to the resets to come (R204). -/
theorem hostOp_withResets {body : State → OpRes} (op : Byte)
    (hbody : ∀ t : State, body (t.withResets later) = (body t).mapState (State.withResets later)) (s : State) :
    hostOp op body (s.withResets later) = (hostOp op body s).withResets later :=
  (congrArg (complete op) (hbody s.accepted)).trans (complete_withResets later op (body s.accepted))

theorem respond_withResets (kind : Byte) (value : Word16) (s : State) :
    respond kind value (s.withResets later) P = (respond kind value s P).withResets later := by
  have hpoint : (s.withResets later).point = s.point := rfl
  unfold respond
  rw [hpoint]
  cases s.point with
  | awaiting x =>
    dsimp only
    rw [judge_withResets, complete_withResets]
  | idle | building | draining => rfl

/-- Every instruction executes alike whatever resets are to come. -/
theorem exec_withResets (i : Instr) (s : State) : exec i (s.withResets later) = mapNext (State.withResets later) (exec i s) := by
  have hrequest {body : State → OpRes} (op : Byte)
      (hbody : ∀ t : State, body (t.withResets later) = (body t).mapState (State.withResets later)) :
      (.next (hostOp op body (s.withResets later)) : Host.Outcome State Fault Refusal) =
        mapNext (State.withResets later) (.next (hostOp op body s)) := congrArg Host.Outcome.next (hostOp_withResets later op hbody s)
  cases i with
  | cmdSync | cmdRaw | cmdTrigger => rfl
  | rspSensorValue | rspSyncOk | rspRawAck | rspTriggerAck | rspUnknownCommand | rspCrcMismatch | rspWrongSize | rspUndefinedKind =>
    exact congrArg Host.Outcome.next (respond_withResets later Config.params ..)
  | openAndSync a b => exact hrequest _ (openAndSyncOp_withResets later Config.codec Config.params)
  | setRawMode a b => exact hrequest _ (setRawModeOp_withResets later Config.codec Config.params)
  | setTriggerMode low high => exact hrequest _ (setTriggerModeOp_withResets later Config.codec Config.params low high)
  | readSensorValue a b => exact hrequest _ (readSensorValueOp_withResets later Config.codec Config.params)
  | crc16 length b => exact hrequest _ (crc16Op_withResets later Config.params length)
  | close a b => exact hrequest _ (closeOp_withResets later)
  | setDebug | reserved00 | reserved08 | reserved10 | reserved20 | reserved40 | reserved80 => rfl

theorem stepIdle_withResets (s : State) : stepIdle (s.withResets later) = mapNext (State.withResets later) (stepIdle s) := by
  have hrequests : (s.withResets later).requests = s.requests := rfl
  have hbusy : (s.withResets later).busy = s.busy := rfl
  rw [stepIdle, stepIdle, hrequests, hbusy]
  cases s.requests with
  | nil => rfl
  | cons r rest =>
    dsimp only
    split
    · rfl
    · split
      · exact exec_withResets later _ (s.takeRequest r rest)
      · rfl

/-- A step that no reset cuts off goes on alike from each point whatever resets are to come. -/
theorem stepRunning_withResets (s : State) : stepRunning (s.withResets later) = mapNext (State.withResets later) (stepRunning s) := by
  have hpoint : (s.withResets later).point = s.point := rfl
  cases hp : s.point with
  | idle =>
    simp only [stepRunning, hpoint, hp]
    exact stepIdle_withResets later s
  | building command =>
    simp only [stepRunning, hpoint, hp, stepBuilding]
    split
    · exact exec_withResets later _ { s with point := .idle }
    · rfl
  | draining =>
    have hwritten : (s.withResets later).written.txPkt = s.written.txPkt := rfl
    simp only [stepRunning, hpoint, hp, stepDraining, hwritten, resumeDrain, drainAndEcho_withResets, complete_withResets]
    split <;> rfl
  | awaiting x =>
    rw [stepRunning_awaiting hp, stepRunning_awaiting (hpoint.trans hp), awaitResponse_withResets, complete_withResets]
    rfl

end

/-- A step that no reset cuts off leaves the resets to come as they are. -/
theorem stepRunning_resets {s u : State} (h : stepRunning s = .next u) : u.resets = s.resets := by
  have hu : stepRunning s = mapNext (State.withResets s.resets) (stepRunning s) := stepRunning_withResets s.resets s
  rw [h] at hu
  rw [Host.Outcome.next.inj hu]
  rfl

end Sys2Proof.Machine
end

section
/-! SUPPORT. What a reset takes and what it leaves, before a step and inside it (70_reset_and_hazards.md R240; 10_state.md R41; 41_link_and_codec.md
R116 to R119). -/

namespace Sys2Proof.Machine

/-! ### Every field at its reset value -/

/-- Reset takes every field to its value of R41, whatever the world at the ports is. -/
theorem State.applyReset_atReset (s : State) : s.applyReset.AtReset where
  link := rfl
  regime := rfl
  sync := rfl
  mode := rfl
  rawFlag := rfl
  debug := rfl
  syncCount := rfl
  resyncCount := rfl
  written := rfl
  busy := rfl
  status := rfl
  diagA := rfl
  diagB := rfl
  result := rfl
  trace := rfl

/-- A step that would record more events than reset lets it is cut off (R240). -/
theorem cutAt_of_lt {k : Nat} {s u : State} (h : k < (s.recorded u).length) :
    s.cutAt k u = { u with oracle := ((s.recorded u).take k).foldl Oracle.after s.oracle }.applyReset := if_pos h

/-- A step that records no more runs whole, and the reset comes that much sooner. -/
theorem cutAt_of_le {k : Nat} {s u : State} (h : (s.recorded u).length ≤ k) :
    s.cutAt k u = { u with resets := (k - (s.recorded u).length) :: u.resets.tail } := if_neg (Nat.not_lt.mpr h)

/-- A step with a reset to come inside it, by the step that no reset cuts off. -/
theorem step_of_running {s u : State} {k : Nat} {rest : List Nat} (hr : s.resets = (k + 1) :: rest) (hu : stepRunning s = .next u) :
    step s = .next (s.cutAt k u) := by
  rw [step_of_reset_later hr, hu, cutOutcome]

/-- Settles O45: a reset at once is `State.applyReset`, and so is one that cuts a step off. -/
theorem resetAtAnyTime : Obligations.ResetAtAnyTime := by
  intro s rest
  refine ⟨fun hr => ⟨_, step_of_reset_now hr, s.applyReset_atReset⟩, fun k u hr hu hk => ⟨_, step_of_running hr hu, ?_⟩⟩
  rw [← List.length_drop] at hk
  rw [cutAt_of_lt hk]
  exact State.applyReset_atReset _

/-! ### The world at the ports -/

/-- Every request but CRC16 takes from the link's answers what its events say (R116 to R119). -/
theorem exec_replays {i : Instr} {op : Byte} {s u : State} (hi : i.requestCode = some op) (hop : op ≠ 0x05) (hu : exec i s = .next u) :
    Replays s u := by
  rcases exec_request i op s hi with ⟨_, _, -, rfl, he⟩ | ⟨_, _, -, rfl, he⟩ | ⟨low, high, -, rfl, he⟩ | ⟨_, _, -, rfl, he⟩ |
    ⟨_, _, -, rfl, -⟩ | ⟨_, _, -, rfl, he⟩ | ⟨_, _, -, rfl, he⟩ | ⟨-, he⟩
  case inr.inr.inr.inr.inl => exact absurd rfl hop
  all_goals
    cases hu.symm.trans he
    refine hostOp_replays _ _ s fun t => ?_
  · exact openAndSyncOp_replays Config.codec t Config.params
  · exact setRawModeOp_replays Config.codec t Config.params
  · exact setTriggerModeOp_replays Config.codec low high t Config.params
  · exact readSensorValueOp_replays Config.codec t Config.params
  · exact .same rfl rfl
  · exact closeOp_replays t
  · exact .same rfl rfl

/-- A reset inside a step leaves the offers that the step leaves and the answers that the events before it had not taken. -/
theorem step_of_cut_off {s u : State} {k : Nat} {rest : List Nat} (hr : s.resets = (k + 1) :: rest) (hu : stepRunning s = .next u)
    (hk : k < (s.recorded u).length) : step s = .next { State.reset with
      requests := u.requests, oracle := ((s.recorded u).take k).foldl Oracle.after s.oracle, resets := rest } := by
  rw [step_of_running hr hu, cutAt_of_lt hk, State.applyReset, stepRunning_resets hu, hr, List.tail_cons]

/-- A step that no reset cuts off runs whole, and the next reset comes that much sooner. -/
theorem step_of_run_whole {s u : State} {k : Nat} {rest : List Nat} (hr : s.resets = (k + 1) :: rest) (hu : stepRunning s = .next u)
    (hk : (s.recorded u).length ≤ k) : step s = .next { u with resets := (k - (s.recorded u).length) :: rest } := by
  rw [step_of_running hr hu, cutAt_of_le hk, stepRunning_resets hu, hr, List.tail_cons]

/-- With resets to come, the step that no reset cuts off is the step with none to come, but for the field that lists them. -/
theorem stepRunning_of_step {s : State} : stepRunning s = mapNext (State.withResets s.resets) (step { s with resets := [] }) := by
  rw [step_of_undisturbed _ rfl]
  exact stepRunning_withResets s.resets { s with resets := [] }

/-- Settles O46: a step with a reset to come is `cutOutcome` of the step that no reset cuts off, which differs from the step with none to come in
the field `resets` alone (`stepRunning_withResets`), and the answers a request takes are those its events replay (`exec_replays`). -/
theorem resetLeavesTheWorld : Obligations.ResetLeavesTheWorld := by
  refine fun s => ⟨step_of_undisturbed s, fun rest hr => ?_, fun k rest u hr hu => ⟨step_of_cut_off hr hu, step_of_run_whole hr hu⟩,
    fun later => stepRunning_withResets later s, fun k rest hr => ⟨fun u hu hk => ?_, fun f hf => ?_, fun r href => ?_⟩,
    fun i op u hi hop hu => (exec_replays hi hop hu).recorded⟩
  · rw [step_of_reset_now hr, State.applyReset, hr, List.tail_cons]
  · have hrun : stepRunning s = .next (u.withResets s.resets) := by rw [stepRunning_of_step, hu, mapNext]
    exact step_of_run_whole (u := u.withResets s.resets) hr hrun hk
  · rw [step_of_reset_later hr, stepRunning_of_step, hf, mapNext, cutOutcome]
  · rw [step_of_reset_later hr, stepRunning_of_step, href, mapNext, cutOutcome]

end Sys2Proof.Machine
end
